-- ==== Sys2Proof/Word.lean ====
section
/-! DEFINITION. The widths CORE works in: bytes, 12-bit port words, frames as byte lists. -/

namespace Sys2Proof

/-- A byte (00_scope.md R12): every data path of CORE is 8 bits wide (R11). -/
abbrev Byte := BitVec 8

/-- A PORT word: `op[11:8]`, `opd[7:0]` (30_encoding.md R89). -/
abbrev PortWord := BitVec 12

/-- A frame: a finite list of bytes, byte `i` the `i`-th delivered (00_scope.md R12). -/
abbrev Frame := List Byte

/-- `zext`: a byte as an unbounded natural number (00_scope.md R12; 30_encoding.md R83). -/
abbrev zext (b : Byte) : Nat := b.toNat

end Sys2Proof
end

