-- ==== Sys2Proof/Config.lean ====
section
/-! DEFINITION. What an implementation of CORE fixes and the spec leaves open (00_scope.md R7 to R10),
and the free values. Every opaque constant has no body: nothing can be proved of its value. -/

namespace Sys2Proof

/-- The state of the frame decoder (10_state.md R30): the scratch buffer it accumulates the frame in, and
the rest of its state coded as one number. The buffer has FBUF_SIZE bytes, no more and no fewer, cell `i`
the list's `i`-th (20_memory.md R50): both decoders give one of that size, and `Inv` says it stays so.
DESIGN CHOICE (log 5): `DecState` is opaque in the spec, and no rule of CORE reads a field of it. -/
structure DecState where
  scratch : List Byte
  ctl     : Nat
deriving DecidableEq, Repr, Inhabited

/-- Which decoder is attached to CORE (00_scope.md R8). DESIGN CHOICE (log 6). -/
inductive DecoderKind where
  /-- The external decoder: the open parameter `(DecState, DecInit, DecFeed)`. -/
  | external
  /-- The test decoder TD of 95_test_vectors.md section 0 (decision D22). -/
  | fixtureTD
deriving DecidableEq, Repr

/-- The parameters of one CORE (00_scope.md R7, R8, R10). Both sizes are kept as what they exceed
their least value by, so that every value of the record meets `QCAP ≥ 1` and `FBUF_SIZE ≥ 3`. -/
structure Params where
  qcapLess1   : Nat
  fbufLess3   : Nat
  cfgInitAddr : Byte
  decoder     : DecoderKind
deriving DecidableEq, Repr

/-- `QCAP`, the FIFO capacity in bytes (00_scope.md R7). -/
def Params.qcap (p : Params) : Nat := p.qcapLess1 + 1

/-- The FBUF_SIZE that TD is given for (95_test_vectors.md section 0). -/
def tdBufSize : Nat := 258

/-- `FBUF_SIZE`, the size of the decoder's scratch buffer (00_scope.md R8). TD comes with its own (log 6). -/
def Params.fbufSize (p : Params) : Nat :=
  match p.decoder with
  | .external => p.fbufLess3 + 3
  | .fixtureTD => tdBufSize

/-- The block's own QCAP, less 1. OPEN (92_eei_decisions.md D2; log 4). -/
opaque Config.qcapLess1 : Nat

/-- The block's own FBUF_SIZE, less 3. OPEN (92_eei_decisions.md D3; log 4). -/
opaque Config.fbufLess3 : Nat

/-- CFG_INIT_ADDR (00_scope.md R10). OPEN (log 4). -/
opaque Config.cfgInitAddr : Byte

/-- `DecInit` of the external decoder (00_scope.md R8): its scratch buffer, of FBUF_SIZE bytes, and its
number. OPEN (92_eei_decisions.md D21; log 5). -/
opaque Config.decInit (fbufSize : Nat) : Vector Byte fbufSize × Nat

/-- `DecFeed` of the external decoder: a function of the decoder's state and the byte alone, at most
one frame, and that of at most FBUF_SIZE bytes (41_frame_interface.md R131 (a) to (c)). It is given
no other state of CORE, so it touches none (R131 (d)), and it leaves a scratch buffer of FBUF_SIZE bytes
(10_state.md R30). OPEN (D21; log 5). -/
opaque Config.decFeed (fbufSize : Nat) (d : DecState) (b : Byte) :
    (Vector Byte fbufSize × Nat) × Option {f : Frame // f.length ≤ fbufSize}

/-- Free values: the contents of a FIFO cell that no PUSH has written (10_state.md R23;
93_implementation_defined.md A9 "any value"). Log 2. -/
opaque Config.freeByte : Nat → Byte

/-- The parameters of the block itself. -/
def Config.params : Params where
  qcapLess1   := Config.qcapLess1
  fbufLess3   := Config.fbufLess3
  cfgInitAddr := Config.cfgInitAddr
  decoder     := .external

end Sys2Proof
end

