-- ==== Sys2Proof/Syntax.lean ====
section
/-! DEFINITION. The instructions of CORE: one constructor for each row of spec/opcode_table.json.

A FRAME instruction is one delivered frame (30_encoding.md R80, R81): its address byte `addr`, the free
low bits `x` of its command code where the row covers a block of codes, its count byte `n`, and `rest`,
every byte delivered after byte 2 (as many as the decoder delivered, not as many as `n` declares: R84).
A PORT instruction is one port transaction (R89). -/

namespace Sys2Proof

inductive Instr where
  /-- RESERVED_INVALID_0x00 (42_dispatcher.md R173): command code 0b00000000. -/
  | reservedInvalid00 (addr : Byte) (n : Byte) (rest : Frame)
  /-- SET_BLINK_MASK (42_dispatcher.md R160): command code 0b00000001. -/
  | setBlinkMask (addr : Byte) (n : Byte) (rest : Frame)
  /-- SET_BLINK_SPEED (42_dispatcher.md R161): command code 0b00000010. -/
  | setBlinkSpeed (addr : Byte) (n : Byte) (rest : Frame)
  /-- SET_CONTRAST_A (42_dispatcher.md R162): command code 0b00000011. -/
  | setContrastA (addr : Byte) (n : Byte) (rest : Frame)
  /-- SET_CONTRAST_B (42_dispatcher.md R163): command code 0b00000100. -/
  | setContrastB (addr : Byte) (n : Byte) (rest : Frame)
  /-- PRINT_STRING (42_dispatcher.md R164): command code 0b00000101. -/
  | printString (addr : Byte) (n : Byte) (rest : Frame)
  /-- SET_SCROLL_SPEED (42_dispatcher.md R165): command code 0b00000110. -/
  | setScrollSpeed (addr : Byte) (n : Byte) (rest : Frame)
  /-- SAVE_SETTINGS (42_dispatcher.md R166): command code 0b00000111. -/
  | saveSettings (addr : Byte) (n : Byte) (rest : Frame)
  /-- ADD_TEMP_FONT (42_dispatcher.md R167): command code 0b00001000. -/
  | addTempFont (addr : Byte) (n : Byte) (rest : Frame)
  /-- SET_HIGHLIGHT (42_dispatcher.md R168): command code 0b00001001. -/
  | setHighlight (addr : Byte) (n : Byte) (rest : Frame)
  /-- SET_CONTRAST_TABLE (42_dispatcher.md R169): command code 0b00001010. -/
  | setContrastTable (addr : Byte) (n : Byte) (rest : Frame)
  /-- UNASSIGNED_0x0B (42_dispatcher.md R173): command code 0b00001011. -/
  | unassigned0B (addr : Byte) (n : Byte) (rest : Frame)
  /-- UNASSIGNED_0x0C-0x0F (42_dispatcher.md R173): command code 0b000011xx. -/
  | unassigned0C0F (addr : Byte) (x : BitVec 2) (n : Byte) (rest : Frame)
  /-- UNASSIGNED_0x10-0x1F (42_dispatcher.md R173): command code 0b0001xxxx. -/
  | unassigned101F (addr : Byte) (x : BitVec 4) (n : Byte) (rest : Frame)
  /-- UNASSIGNED_0x20-0x3F (42_dispatcher.md R173): command code 0b001xxxxx. -/
  | unassigned203F (addr : Byte) (x : BitVec 5) (n : Byte) (rest : Frame)
  /-- UNASSIGNED_0x40-0x7F (42_dispatcher.md R173): command code 0b01xxxxxx. -/
  | unassigned407F (addr : Byte) (x : BitVec 6) (n : Byte) (rest : Frame)
  /-- UNASSIGNED_0x80-0x9F (42_dispatcher.md R173): command code 0b100xxxxx. -/
  | unassigned809F (addr : Byte) (x : BitVec 5) (n : Byte) (rest : Frame)
  /-- SET_DEVICE_ADDRESS (42_dispatcher.md R170): command code 0b10100000. -/
  | setDeviceAddress (addr : Byte) (n : Byte) (rest : Frame)
  /-- UNASSIGNED_0xA1 (42_dispatcher.md R173): command code 0b10100001. -/
  | unassignedA1 (addr : Byte) (n : Byte) (rest : Frame)
  /-- UNASSIGNED_0xA2-0xA3 (42_dispatcher.md R173): command code 0b1010001x. -/
  | unassignedA2A3 (addr : Byte) (x : BitVec 1) (n : Byte) (rest : Frame)
  /-- UNASSIGNED_0xA4-0xA7 (42_dispatcher.md R173): command code 0b101001xx. -/
  | unassignedA4A7 (addr : Byte) (x : BitVec 2) (n : Byte) (rest : Frame)
  /-- UNASSIGNED_0xA8-0xAF (42_dispatcher.md R173): command code 0b10101xxx. -/
  | unassignedA8AF (addr : Byte) (x : BitVec 3) (n : Byte) (rest : Frame)
  /-- UNASSIGNED_0xB0-0xBF (42_dispatcher.md R173): command code 0b1011xxxx. -/
  | unassignedB0BF (addr : Byte) (x : BitVec 4) (n : Byte) (rest : Frame)
  /-- UNASSIGNED_0xC0-0xDF (42_dispatcher.md R173): command code 0b110xxxxx. -/
  | unassignedC0DF (addr : Byte) (x : BitVec 5) (n : Byte) (rest : Frame)
  /-- UNASSIGNED_0xE0-0xEF (42_dispatcher.md R173): command code 0b1110xxxx. -/
  | unassignedE0EF (addr : Byte) (x : BitVec 4) (n : Byte) (rest : Frame)
  /-- UNASSIGNED_0xF0-0xF7 (42_dispatcher.md R173): command code 0b11110xxx. -/
  | unassignedF0F7 (addr : Byte) (x : BitVec 3) (n : Byte) (rest : Frame)
  /-- UNASSIGNED_0xF8-0xFB (42_dispatcher.md R173): command code 0b111110xx. -/
  | unassignedF8FB (addr : Byte) (x : BitVec 2) (n : Byte) (rest : Frame)
  /-- UNASSIGNED_0xFC-0xFD (42_dispatcher.md R173): command code 0b1111110x. -/
  | unassignedFCFD (addr : Byte) (x : BitVec 1) (n : Byte) (rest : Frame)
  /-- HELLO (42_dispatcher.md R171): command code 0b11111110. -/
  | hello (addr : Byte) (n : Byte) (rest : Frame)
  /-- SYSTEM (42_dispatcher.md R172): command code 0b11111111. -/
  | system (addr : Byte) (n : Byte) (rest : Frame)
  /-- PUSH (40_byte_queue.md R110): selector 0b0001. -/
  | push (b : Byte)
  /-- POP (40_byte_queue.md R111): selector 0b0010. -/
  | pop
  /-- POLL (44_poll_loop.md R220): selector 0b0011. -/
  | poll
  /-- ON_FRAME (42_dispatcher.md R150; `payload` stands beside the word): selector 0b0100. -/
  | onFrame (payload : Option Frame)
  /-- INIT (43_address.md R200): selector 0b0101. -/
  | init (a : Byte)
  /-- SET_ADDRESS (43_address.md R201): selector 0b0110. -/
  | setAddress (v : Byte)
  /-- GET_ADDRESS (43_address.md R202): selector 0b0111. -/
  | getAddress
  /-- PORT_RESERVED_0x0 (30_encoding.md R90): selector 0b0000. -/
  | portReserved0 (opd : Byte)
  /-- PORT_RESERVED_0x8 (30_encoding.md R90): selector 0b1000. -/
  | portReserved8 (opd : Byte)
  /-- PORT_RESERVED_0x9 (30_encoding.md R90): selector 0b1001. -/
  | portReserved9 (opd : Byte)
  /-- PORT_RESERVED_0xA (30_encoding.md R90): selector 0b1010. -/
  | portReservedA (opd : Byte)
  /-- PORT_RESERVED_0xB (30_encoding.md R90): selector 0b1011. -/
  | portReservedB (opd : Byte)
  /-- PORT_RESERVED_0xC (30_encoding.md R90): selector 0b1100. -/
  | portReservedC (opd : Byte)
  /-- PORT_RESERVED_0xD (30_encoding.md R90): selector 0b1101. -/
  | portReservedD (opd : Byte)
  /-- PORT_RESERVED_0xE (30_encoding.md R90): selector 0b1110. -/
  | portReservedE (opd : Byte)
  /-- PORT_RESERVED_0xF (30_encoding.md R90): selector 0b1111. -/
  | portReservedF (opd : Byte)
deriving DecidableEq, Repr

end Sys2Proof
end

