-- ==== Sys2Proof/WellFormed.lean ====
section
/-! DEFINITION. Which instructions are well formed. It is a property of the instruction as written: the
dispatcher also has an answer to every ill-formed frame (42_dispatcher.md R154), and the port refuses every
reserved word (30_encoding.md R90). -/

namespace Sys2Proof

/-- A frame's length is exactly `3 + N` (30_encoding.md R81): `rest` holds the `n` parameter bytes. -/
def frameWellFormed (n : Byte) (rest : Frame) : Bool := rest.length == zext n

/-- A well-formed instruction: a frame of the length it declares (30_encoding.md R81), or a port word whose
selector is not reserved (R90). The operand of POP, POLL, ON_FRAME and GET_ADDRESS is 0 by the shape of
their constructors, and a payload of ON_FRAME may be any frame or none (R91). -/
def WellFormed : Instr → Bool
  | .reservedInvalid00 _ n rest => frameWellFormed n rest
  | .setBlinkMask _ n rest => frameWellFormed n rest
  | .setBlinkSpeed _ n rest => frameWellFormed n rest
  | .setContrastA _ n rest => frameWellFormed n rest
  | .setContrastB _ n rest => frameWellFormed n rest
  | .printString _ n rest => frameWellFormed n rest
  | .setScrollSpeed _ n rest => frameWellFormed n rest
  | .saveSettings _ n rest => frameWellFormed n rest
  | .addTempFont _ n rest => frameWellFormed n rest
  | .setHighlight _ n rest => frameWellFormed n rest
  | .setContrastTable _ n rest => frameWellFormed n rest
  | .unassigned0B _ n rest => frameWellFormed n rest
  | .unassigned0C0F _ _ n rest => frameWellFormed n rest
  | .unassigned101F _ _ n rest => frameWellFormed n rest
  | .unassigned203F _ _ n rest => frameWellFormed n rest
  | .unassigned407F _ _ n rest => frameWellFormed n rest
  | .unassigned809F _ _ n rest => frameWellFormed n rest
  | .setDeviceAddress _ n rest => frameWellFormed n rest
  | .unassignedA1 _ n rest => frameWellFormed n rest
  | .unassignedA2A3 _ _ n rest => frameWellFormed n rest
  | .unassignedA4A7 _ _ n rest => frameWellFormed n rest
  | .unassignedA8AF _ _ n rest => frameWellFormed n rest
  | .unassignedB0BF _ _ n rest => frameWellFormed n rest
  | .unassignedC0DF _ _ n rest => frameWellFormed n rest
  | .unassignedE0EF _ _ n rest => frameWellFormed n rest
  | .unassignedF0F7 _ _ n rest => frameWellFormed n rest
  | .unassignedF8FB _ _ n rest => frameWellFormed n rest
  | .unassignedFCFD _ _ n rest => frameWellFormed n rest
  | .hello _ n rest => frameWellFormed n rest
  | .system _ n rest => frameWellFormed n rest
  | .push _ => true
  | .pop => true
  | .poll => true
  | .onFrame _ => true
  | .init _ => true
  | .setAddress _ => true
  | .getAddress => true
  | .portReserved0 _ => false
  | .portReserved8 _ => false
  | .portReserved9 _ => false
  | .portReservedA _ => false
  | .portReservedB _ => false
  | .portReservedC _ => false
  | .portReservedD _ => false
  | .portReservedE _ => false
  | .portReservedF _ => false

end Sys2Proof
end

