-- ==== Sys2Proof/Decode.lean ====
section
/-! DEFINITION. The decoder of frames and port words, the encoder, and the numbering of the opcode table
(30_encoding.md R80 to R91). -/

namespace Sys2Proof

/-- What is decoded: a delivered frame (R80), or a port word with the payload beside it (R89). -/
inductive Words where
  | frame (f : Frame)
  | port (w : PortWord) (payload : Option Frame)
deriving DecidableEq, Repr

/-- Why the decoder gives no instruction. -/
inductive DecodeError where
  /-- Fewer than 3 bytes: not even a header (42_dispatcher.md R151). -/
  | shortFrame
  /-- POP, POLL, ON_FRAME or GET_ADDRESS with an operand other than 0 (30_encoding.md R90). -/
  | nonzeroOperand
deriving DecidableEq, Repr

/-- The instruction of a frame with header `[addr, cmd, n]`: the command-code map (30_encoding.md R86), in
the table's order. -/
def decodeCommand (addr cmd n : Byte) (rest : Frame) : Instr :=
  if cmd = 0x00#8 then .reservedInvalid00 addr n rest
  else if cmd = 0x01#8 then .setBlinkMask addr n rest
  else if cmd = 0x02#8 then .setBlinkSpeed addr n rest
  else if cmd = 0x03#8 then .setContrastA addr n rest
  else if cmd = 0x04#8 then .setContrastB addr n rest
  else if cmd = 0x05#8 then .printString addr n rest
  else if cmd = 0x06#8 then .setScrollSpeed addr n rest
  else if cmd = 0x07#8 then .saveSettings addr n rest
  else if cmd = 0x08#8 then .addTempFont addr n rest
  else if cmd = 0x09#8 then .setHighlight addr n rest
  else if cmd = 0x0A#8 then .setContrastTable addr n rest
  else if cmd = 0x0B#8 then .unassigned0B addr n rest
  else if cmd.extractLsb' 2 6 = 0b000011#6 then .unassigned0C0F addr (cmd.extractLsb' 0 2) n rest
  else if cmd.extractLsb' 4 4 = 0b0001#4 then .unassigned101F addr (cmd.extractLsb' 0 4) n rest
  else if cmd.extractLsb' 5 3 = 0b001#3 then .unassigned203F addr (cmd.extractLsb' 0 5) n rest
  else if cmd.extractLsb' 6 2 = 0b01#2 then .unassigned407F addr (cmd.extractLsb' 0 6) n rest
  else if cmd.extractLsb' 5 3 = 0b100#3 then .unassigned809F addr (cmd.extractLsb' 0 5) n rest
  else if cmd = 0xA0#8 then .setDeviceAddress addr n rest
  else if cmd = 0xA1#8 then .unassignedA1 addr n rest
  else if cmd.extractLsb' 1 7 = 0b1010001#7 then .unassignedA2A3 addr (cmd.extractLsb' 0 1) n rest
  else if cmd.extractLsb' 2 6 = 0b101001#6 then .unassignedA4A7 addr (cmd.extractLsb' 0 2) n rest
  else if cmd.extractLsb' 3 5 = 0b10101#5 then .unassignedA8AF addr (cmd.extractLsb' 0 3) n rest
  else if cmd.extractLsb' 4 4 = 0b1011#4 then .unassignedB0BF addr (cmd.extractLsb' 0 4) n rest
  else if cmd.extractLsb' 5 3 = 0b110#3 then .unassignedC0DF addr (cmd.extractLsb' 0 5) n rest
  else if cmd.extractLsb' 4 4 = 0b1110#4 then .unassignedE0EF addr (cmd.extractLsb' 0 4) n rest
  else if cmd.extractLsb' 3 5 = 0b11110#5 then .unassignedF0F7 addr (cmd.extractLsb' 0 3) n rest
  else if cmd.extractLsb' 2 6 = 0b111110#6 then .unassignedF8FB addr (cmd.extractLsb' 0 2) n rest
  else if cmd.extractLsb' 1 7 = 0b1111110#7 then .unassignedFCFD addr (cmd.extractLsb' 0 1) n rest
  else if cmd = 0xFE#8 then .hello addr n rest
  else .system addr n rest

/-- The instruction of a delivered frame (R80): bytes 0, 1 and 2 are the address, the code and the count. -/
def decodeFrame : Frame → Except DecodeError Instr
  | addr :: cmd :: n :: rest => .ok (decodeCommand addr cmd n rest)
  | _ => .error .shortFrame

/-- A word whose operand must be 0 (R90). -/
def withZeroOperand (opd : Byte) (i : Instr) : Except DecodeError Instr :=
  if opd = 0#8 then .ok i else .error .nonzeroOperand

/-- The transaction of a port word (R89, R90). The payload is read by ON_FRAME alone (log 20). -/
def decodePort (w : PortWord) (payload : Option Frame) : Except DecodeError Instr :=
  let opd := w.extractLsb' 0 8
  match (w.extractLsb' 8 4).toNat with
  | 0x0 => .ok (.portReserved0 opd)
  | 0x1 => .ok (.push opd)
  | 0x2 => withZeroOperand opd .pop
  | 0x3 => withZeroOperand opd .poll
  | 0x4 => withZeroOperand opd (.onFrame payload)
  | 0x5 => .ok (.init opd)
  | 0x6 => .ok (.setAddress opd)
  | 0x7 => withZeroOperand opd .getAddress
  | 0x8 => .ok (.portReserved8 opd)
  | 0x9 => .ok (.portReserved9 opd)
  | 0xA => .ok (.portReservedA opd)
  | 0xB => .ok (.portReservedB opd)
  | 0xC => .ok (.portReservedC opd)
  | 0xD => .ok (.portReservedD opd)
  | 0xE => .ok (.portReservedE opd)
  | _ => .ok (.portReservedF opd)

/-- The decoder, total: an instruction, or the named reason there is none. -/
def decode : Words → Except DecodeError Instr
  | .frame f => decodeFrame f
  | .port w payload => decodePort w payload

/-- The words of an instruction, from the encoding tables of R81, R86 and R89. -/
def encode : Instr → Words
  | .reservedInvalid00 addr n rest => .frame (addr :: 0x00#8 :: n :: rest)
  | .setBlinkMask addr n rest => .frame (addr :: 0x01#8 :: n :: rest)
  | .setBlinkSpeed addr n rest => .frame (addr :: 0x02#8 :: n :: rest)
  | .setContrastA addr n rest => .frame (addr :: 0x03#8 :: n :: rest)
  | .setContrastB addr n rest => .frame (addr :: 0x04#8 :: n :: rest)
  | .printString addr n rest => .frame (addr :: 0x05#8 :: n :: rest)
  | .setScrollSpeed addr n rest => .frame (addr :: 0x06#8 :: n :: rest)
  | .saveSettings addr n rest => .frame (addr :: 0x07#8 :: n :: rest)
  | .addTempFont addr n rest => .frame (addr :: 0x08#8 :: n :: rest)
  | .setHighlight addr n rest => .frame (addr :: 0x09#8 :: n :: rest)
  | .setContrastTable addr n rest => .frame (addr :: 0x0A#8 :: n :: rest)
  | .unassigned0B addr n rest => .frame (addr :: 0x0B#8 :: n :: rest)
  | .unassigned0C0F addr x n rest => .frame (addr :: (0b000011#6 ++ x) :: n :: rest)
  | .unassigned101F addr x n rest => .frame (addr :: (0b0001#4 ++ x) :: n :: rest)
  | .unassigned203F addr x n rest => .frame (addr :: (0b001#3 ++ x) :: n :: rest)
  | .unassigned407F addr x n rest => .frame (addr :: (0b01#2 ++ x) :: n :: rest)
  | .unassigned809F addr x n rest => .frame (addr :: (0b100#3 ++ x) :: n :: rest)
  | .setDeviceAddress addr n rest => .frame (addr :: 0xA0#8 :: n :: rest)
  | .unassignedA1 addr n rest => .frame (addr :: 0xA1#8 :: n :: rest)
  | .unassignedA2A3 addr x n rest => .frame (addr :: (0b1010001#7 ++ x) :: n :: rest)
  | .unassignedA4A7 addr x n rest => .frame (addr :: (0b101001#6 ++ x) :: n :: rest)
  | .unassignedA8AF addr x n rest => .frame (addr :: (0b10101#5 ++ x) :: n :: rest)
  | .unassignedB0BF addr x n rest => .frame (addr :: (0b1011#4 ++ x) :: n :: rest)
  | .unassignedC0DF addr x n rest => .frame (addr :: (0b110#3 ++ x) :: n :: rest)
  | .unassignedE0EF addr x n rest => .frame (addr :: (0b1110#4 ++ x) :: n :: rest)
  | .unassignedF0F7 addr x n rest => .frame (addr :: (0b11110#5 ++ x) :: n :: rest)
  | .unassignedF8FB addr x n rest => .frame (addr :: (0b111110#6 ++ x) :: n :: rest)
  | .unassignedFCFD addr x n rest => .frame (addr :: (0b1111110#7 ++ x) :: n :: rest)
  | .hello addr n rest => .frame (addr :: 0xFE#8 :: n :: rest)
  | .system addr n rest => .frame (addr :: 0xFF#8 :: n :: rest)
  | .push b => .port (0x1#4 ++ b) none
  | .pop => .port (0x2#4 ++ 0#8) none
  | .poll => .port (0x3#4 ++ 0#8) none
  | .onFrame payload => .port (0x4#4 ++ 0#8) payload
  | .init a => .port (0x5#4 ++ a) none
  | .setAddress v => .port (0x6#4 ++ v) none
  | .getAddress => .port (0x7#4 ++ 0#8) none
  | .portReserved0 opd => .port (0x0#4 ++ opd) none
  | .portReserved8 opd => .port (0x8#4 ++ opd) none
  | .portReserved9 opd => .port (0x9#4 ++ opd) none
  | .portReservedA opd => .port (0xA#4 ++ opd) none
  | .portReservedB opd => .port (0xB#4 ++ opd) none
  | .portReservedC opd => .port (0xC#4 ++ opd) none
  | .portReservedD opd => .port (0xD#4 ++ opd) none
  | .portReservedE opd => .port (0xE#4 ++ opd) none
  | .portReservedF opd => .port (0xF#4 ++ opd) none

/-- The frame of a FRAME instruction; none for a port transaction. -/
def frameOf (i : Instr) : Option Frame :=
  match encode i with
  | .frame f => some f
  | .port _ _ => none

/-- The header pattern `H` of a frame's first three bytes: byte 0 in `H[23:16]`, byte 1 in `H[15:8]`,
byte 2 in `H[7:0]` (R82). -/
def headerPattern (addr cmd n : Byte) : BitVec 24 := addr ++ cmd ++ n

/-- The words that an opcode-table word `w` of `nbits` bits stands for: a 24-bit word is a header pattern
(R82), whose parameters are zeros, and a word of 12 bits, or of 16 with the upper four 0, is a port word
(R89) without a payload (log 21). -/
def tableWords (nbits w : Nat) : Option Words :=
  if nbits = 24 then
    if w < 2 ^ 24 then
      let h := BitVec.ofNat 24 w
      let n : Byte := h.extractLsb' 0 8
      some (.frame (h.extractLsb' 16 8 :: h.extractLsb' 8 8 :: n :: List.replicate (zext n) 0#8))
    else none
  else if nbits = 16 ∨ nbits = 12 then
    if w < 2 ^ 12 then some (.port (BitVec.ofNat 12 w) none) else none
  else none

/-- The instruction the decoder reads from an opcode-table word. -/
def decodeTableWord (nbits w : Nat) : Option Instr :=
  match tableWords nbits w with
  | none => none
  | some ws =>
    match decode ws with
    | .ok i => some i
    | .error _ => none

/-- One row of spec/opcode_table.json: its mnemonic, and its match and mask. A FRAME row's apply to the
header pattern (R82), a PORT row's to the port word (R89). -/
structure OpcodeRow where
  mnemonic : String
  mask     : Nat
  pattern  : Nat
deriving DecidableEq, Repr

/-- The FRAME rows of the table, in its order. -/
def frameRows : List OpcodeRow :=
  [⟨"RESERVED_INVALID_0x00", 0x00FF00, 0x000000⟩,
   ⟨"SET_BLINK_MASK", 0x00FF00, 0x000100⟩,
   ⟨"SET_BLINK_SPEED", 0x00FF00, 0x000200⟩,
   ⟨"SET_CONTRAST_A", 0x00FF00, 0x000300⟩,
   ⟨"SET_CONTRAST_B", 0x00FF00, 0x000400⟩,
   ⟨"PRINT_STRING", 0x00FF00, 0x000500⟩,
   ⟨"SET_SCROLL_SPEED", 0x00FF00, 0x000600⟩,
   ⟨"SAVE_SETTINGS", 0x00FF00, 0x000700⟩,
   ⟨"ADD_TEMP_FONT", 0x00FF00, 0x000800⟩,
   ⟨"SET_HIGHLIGHT", 0x00FF00, 0x000900⟩] ++
  [⟨"SET_CONTRAST_TABLE", 0x00FF00, 0x000A00⟩,
   ⟨"UNASSIGNED_0x0B", 0x00FF00, 0x000B00⟩,
   ⟨"UNASSIGNED_0x0C-0x0F", 0x00FC00, 0x000C00⟩,
   ⟨"UNASSIGNED_0x10-0x1F", 0x00F000, 0x001000⟩,
   ⟨"UNASSIGNED_0x20-0x3F", 0x00E000, 0x002000⟩,
   ⟨"UNASSIGNED_0x40-0x7F", 0x00C000, 0x004000⟩,
   ⟨"UNASSIGNED_0x80-0x9F", 0x00E000, 0x008000⟩,
   ⟨"SET_DEVICE_ADDRESS", 0x00FF00, 0x00A000⟩,
   ⟨"UNASSIGNED_0xA1", 0x00FF00, 0x00A100⟩,
   ⟨"UNASSIGNED_0xA2-0xA3", 0x00FE00, 0x00A200⟩] ++
  [⟨"UNASSIGNED_0xA4-0xA7", 0x00FC00, 0x00A400⟩,
   ⟨"UNASSIGNED_0xA8-0xAF", 0x00F800, 0x00A800⟩,
   ⟨"UNASSIGNED_0xB0-0xBF", 0x00F000, 0x00B000⟩,
   ⟨"UNASSIGNED_0xC0-0xDF", 0x00E000, 0x00C000⟩,
   ⟨"UNASSIGNED_0xE0-0xEF", 0x00F000, 0x00E000⟩,
   ⟨"UNASSIGNED_0xF0-0xF7", 0x00F800, 0x00F000⟩,
   ⟨"UNASSIGNED_0xF8-0xFB", 0x00FC00, 0x00F800⟩,
   ⟨"UNASSIGNED_0xFC-0xFD", 0x00FE00, 0x00FC00⟩,
   ⟨"HELLO", 0x00FF00, 0x00FE00⟩,
   ⟨"SYSTEM", 0x00FF00, 0x00FF00⟩]

/-- The PORT rows of the table, in its order. -/
def portRows : List OpcodeRow :=
  [⟨"PUSH", 0xF00, 0x100⟩,
   ⟨"POP", 0xFFF, 0x200⟩,
   ⟨"POLL", 0xFFF, 0x300⟩,
   ⟨"ON_FRAME", 0xFFF, 0x400⟩,
   ⟨"INIT", 0xF00, 0x500⟩,
   ⟨"SET_ADDRESS", 0xF00, 0x600⟩,
   ⟨"GET_ADDRESS", 0xFFF, 0x700⟩,
   ⟨"PORT_RESERVED_0x0", 0xF00, 0x000⟩,
   ⟨"PORT_RESERVED_0x8", 0xF00, 0x800⟩,
   ⟨"PORT_RESERVED_0x9", 0xF00, 0x900⟩] ++
  [⟨"PORT_RESERVED_0xA", 0xF00, 0xA00⟩,
   ⟨"PORT_RESERVED_0xB", 0xF00, 0xB00⟩,
   ⟨"PORT_RESERVED_0xC", 0xF00, 0xC00⟩,
   ⟨"PORT_RESERVED_0xD", 0xF00, 0xD00⟩,
   ⟨"PORT_RESERVED_0xE", 0xF00, 0xE00⟩,
   ⟨"PORT_RESERVED_0xF", 0xF00, 0xF00⟩]

/-- A row matches a word when the word's masked bits are the row's. -/
def OpcodeRow.matches (r : OpcodeRow) (w : Nat) : Bool := w &&& r.mask == r.pattern

/-- The table's mnemonic of each instruction. -/
def mnemonicOf : Instr → String
  | .reservedInvalid00 _ _ _ => "RESERVED_INVALID_0x00"
  | .setBlinkMask _ _ _ => "SET_BLINK_MASK"
  | .setBlinkSpeed _ _ _ => "SET_BLINK_SPEED"
  | .setContrastA _ _ _ => "SET_CONTRAST_A"
  | .setContrastB _ _ _ => "SET_CONTRAST_B"
  | .printString _ _ _ => "PRINT_STRING"
  | .setScrollSpeed _ _ _ => "SET_SCROLL_SPEED"
  | .saveSettings _ _ _ => "SAVE_SETTINGS"
  | .addTempFont _ _ _ => "ADD_TEMP_FONT"
  | .setHighlight _ _ _ => "SET_HIGHLIGHT"
  | .setContrastTable _ _ _ => "SET_CONTRAST_TABLE"
  | .unassigned0B _ _ _ => "UNASSIGNED_0x0B"
  | .unassigned0C0F _ _ _ _ => "UNASSIGNED_0x0C-0x0F"
  | .unassigned101F _ _ _ _ => "UNASSIGNED_0x10-0x1F"
  | .unassigned203F _ _ _ _ => "UNASSIGNED_0x20-0x3F"
  | .unassigned407F _ _ _ _ => "UNASSIGNED_0x40-0x7F"
  | .unassigned809F _ _ _ _ => "UNASSIGNED_0x80-0x9F"
  | .setDeviceAddress _ _ _ => "SET_DEVICE_ADDRESS"
  | .unassignedA1 _ _ _ => "UNASSIGNED_0xA1"
  | .unassignedA2A3 _ _ _ _ => "UNASSIGNED_0xA2-0xA3"
  | .unassignedA4A7 _ _ _ _ => "UNASSIGNED_0xA4-0xA7"
  | .unassignedA8AF _ _ _ _ => "UNASSIGNED_0xA8-0xAF"
  | .unassignedB0BF _ _ _ _ => "UNASSIGNED_0xB0-0xBF"
  | .unassignedC0DF _ _ _ _ => "UNASSIGNED_0xC0-0xDF"
  | .unassignedE0EF _ _ _ _ => "UNASSIGNED_0xE0-0xEF"
  | .unassignedF0F7 _ _ _ _ => "UNASSIGNED_0xF0-0xF7"
  | .unassignedF8FB _ _ _ _ => "UNASSIGNED_0xF8-0xFB"
  | .unassignedFCFD _ _ _ _ => "UNASSIGNED_0xFC-0xFD"
  | .hello _ _ _ => "HELLO"
  | .system _ _ _ => "SYSTEM"
  | .push _ => "PUSH"
  | .pop => "POP"
  | .poll => "POLL"
  | .onFrame _ => "ON_FRAME"
  | .init _ => "INIT"
  | .setAddress _ => "SET_ADDRESS"
  | .getAddress => "GET_ADDRESS"
  | .portReserved0 _ => "PORT_RESERVED_0x0"
  | .portReserved8 _ => "PORT_RESERVED_0x8"
  | .portReserved9 _ => "PORT_RESERVED_0x9"
  | .portReservedA _ => "PORT_RESERVED_0xA"
  | .portReservedB _ => "PORT_RESERVED_0xB"
  | .portReservedC _ => "PORT_RESERVED_0xC"
  | .portReservedD _ => "PORT_RESERVED_0xD"
  | .portReservedE _ => "PORT_RESERVED_0xE"
  | .portReservedF _ => "PORT_RESERVED_0xF"

end Sys2Proof
end

