-- ==== Sys2Proof/Machine/State.lean ====
section
/-! DEFINITION. The state of CORE (10_state.md R20 to R38), the requests at its ports, the reasons a step
stops, and the machine right after reset. Plain data throughout. -/

namespace Sys2Proof.Machine

/-- Why a step faults. -/
inductive Fault where
  /-- `MemRead` or `MemWrite` at an index outside `0..QCAP-1`: such a cell does not exist (00_scope.md R12,
  10_state.md R23). Raised by PUSH, POP and POLL_ITER when RD or WR is out of its range, which R24 and R25
  rule out and no run reaches (log 16). Safe: the model stops. -/
  | qmemOutOfRange
deriving DecidableEq, Repr

/-- Why a request is refused (60_exceptions.md R262): it takes no step and changes no state. Every refusal
is safe: it makes claims about such a use unprovable. -/
inductive Refusal where
  /-- An arm of `exec` without a meaning. No arm of this model is so. -/
  | notModelled (mnemonic : String)
  /-- Any transaction but INIT while INIT_DONE = 0 (R31). Raised by the meanings and by POLL_ITER. -/
  | notInitialized
  /-- A transaction outside its column of R255. Raised by the meanings and by the ports. -/
  | wrongContext
  /-- A port word with selector 0x0 or 0x8 to 0xF (R90). Raised by the reserved rows' meanings. -/
  | reservedSelector
  /-- POP, POLL, ON_FRAME or GET_ADDRESS with an operand other than 0 (R90). Raised by the ports. -/
  | nonzeroOperand
  /-- A PUSH that would overlap another PUSH, or a second producer (R114). Raised by the ports. -/
  | overlappingProducer
  /-- A handler call that issues a transaction (R175). Raised by the ports. -/
  | reentrantCall
  /-- A command table with a code entered twice (R174). Raised when a table is constructed. -/
  | duplicateCode
deriving DecidableEq, Repr

/-- The consumer's sequencing state (R32). -/
inductive CState where
  | idle
  | polling
deriving DecidableEq, Repr

/-- A handler-call event `Invoke(c, p)` (R35, R156). -/
structure Invoke where
  code   : Byte
  params : List Byte
deriving DecidableEq, Repr

/-- The outcome codes of DIAG (R241). -/
inductive DiagCode where
  | dispatched
  | queueOverflow
  | malformedFrame
  | foreignAddress
  | unknownCommand
  | lengthMismatch
  | reservedNoop
deriving DecidableEq, Repr

/-- The result of one POLL iteration (44_poll_loop.md R221). -/
inductive IterResult where
  | empty
  | more
deriving DecidableEq, Repr

/-- What a transaction hands back to the agent that issued it (00_scope.md R12; R34). -/
inductive Ret where
  /-- The transaction has no result. -/
  | nothing
  /-- PUSH's `accepted` (R110). -/
  | accepted (ok : Bool)
  /-- POP's result (R111). -/
  | popped (b : Option Byte)
  /-- GET_ADDRESS's result (R202). -/
  | address (a : Byte)
  /-- POLL_ITER's result (R221). -/
  | iteration (r : IterResult)
deriving DecidableEq, Repr

/-- Who issues a request. The producer and the consumer are CORE's two agents (R6, R259); the other two
are uses outside its contract, kept so that they can be refused (log 8). -/
inductive Issuer where
  | producer
  | consumer
  /-- A second producer, or a PUSH issued while another is in progress (R114). -/
  | secondProducer
  /-- A handler, during its call (R175). -/
  | handler
deriving DecidableEq, Repr

/-- What a request asks for. -/
inductive Body where
  /-- One port transaction: a word, and the payload beside it (R89). -/
  | port (w : PortWord) (payload : Option Frame)
  /-- The next iteration of the POLL in progress takes effect here (R92 `POLL_ITER`). -/
  | pollIter
  /-- The rest of the POLL in progress, its iterations back to back (R93 `C: POLL`). -/
  | pollRest
deriving DecidableEq, Repr

/-- One entry of the total order of requests (20_memory.md R59). -/
structure Request where
  issuer : Issuer
  body   : Body
deriving DecidableEq, Repr

/-- FIFO storage: the cells that hold a written byte, by index (R23). -/
abbrev Memory := List Host.Cell

/-- The machine. The first ten fields after `par` are the spec's state (R20). -/
structure State where
  /-- The parameters (R7, R8, R10). No step writes them (log 4). -/
  par       : Params
  /-- DEV_ADDR (R22). -/
  devAddr   : Byte
  /-- QMEM (R23). -/
  qmem      : Memory
  /-- RD (R24). -/
  rd        : Nat
  /-- WR (R25). -/
  wr        : Nat
  /-- CNT (R26). -/
  cnt       : Nat
  /-- INIT_DONE (R31). -/
  initDone  : Bool
  /-- DEC (R30). -/
  dec       : DecState
  /-- CSTATE (R32). -/
  cstate    : CState
  /-- TRACE, oldest first (R35). -/
  trace     : List Invoke
  /-- DIAG, oldest first (R35, R241). -/
  diag      : List DiagCode
  /-- The requests not yet served, in the order in which they take effect (R59; log 7). -/
  pending   : List Request
  /-- What the last transaction served handed back. No transaction reads it (R34; log 9). -/
  ret       : Ret
  /-- How many free values have been drawn. The model's own field (log 3). -/
  freeDraws : Nat
deriving DecidableEq, Repr

/-- How a step ends. -/
abbrev Out := Host.Outcome State Fault Refusal

/-- The machine right after reset (R37; 70_reset_and_hazards.md R280): INIT_DONE = 0, TRACE = DIAG = [].
DESIGN CHOICE (log 1): the spec leaves every other element unspecified, and they are named 0, IDLE and
empty here, the scratch buffer FBUF_SIZE zeros. -/
def State.reset : State where
  par       := Config.params
  devAddr   := 0#8
  qmem      := []
  rd        := 0
  wr        := 0
  cnt       := 0
  initDone  := false
  dec       := { scratch := List.replicate Config.params.fbufSize 0#8, ctl := 0 }
  cstate    := .idle
  trace     := []
  diag      := []
  pending   := []
  ret       := .nothing
  freeDraws := 0

end Sys2Proof.Machine
end

