-- ==== Sys2Proof/Machine/Flags.lean ====
section
/-! DEFINITION. CORE keeps no flag, condition code or counter (10_state.md R34). What stands in their place:
the results handed back to the agents, and the outcome codes of the model-only DIAG (60_exceptions.md R241). -/

namespace Sys2Proof.Machine

/-- `return v` (00_scope.md R12): the result is handed back, and not latched in state CORE reads (R34). -/
def State.returning (s : State) (r : Ret) : State := { s with ret := r }

/-- The number of an outcome code (R241). -/
def DiagCode.number : DiagCode → Nat
  | .dispatched     => 0
  | .queueOverflow  => 1
  | .malformedFrame => 2
  | .foreignAddress => 3
  | .unknownCommand => 4
  | .lengthMismatch => 5
  | .reservedNoop   => 6

/-- `note Outcome(k)`: one code appended to DIAG (00_scope.md R12). -/
def State.note (s : State) (k : DiagCode) : State := { s with diag := s.diag ++ [k] }

/-- `emit Invoke(c, p)`: one handler call appended to TRACE (00_scope.md R12, 42_dispatcher.md R156). -/
def State.emit (s : State) (c : Byte) (p : List Byte) : State :=
  { s with trace := s.trace ++ [{ code := c, params := p }] }

end Sys2Proof.Machine
end

