-- ==== Sys2Proof/Machine/Operands.lean ====
section
/-! DEFINITION. How a frame's bytes become operands (30_encoding.md R83, R84): the address-match filter,
the declared count, and the parameter list. -/

namespace Sys2Proof.Machine

/-- The broadcast address (00_scope.md R11). -/
def broadcastAddr : Byte := 0#8

/-- `MATCH(a)`: a frame's address byte is DEV_ADDR or the broadcast address (42_dispatcher.md R152). -/
def matchAddr (devAddr a : Byte) : Bool := a == broadcastAddr || a == devAddr

/-- Byte 2 declares more parameter bytes than follow it: `N > L − 3` (R154). `rest` is the `L − 3` bytes. -/
def declaresTooMany (n : Byte) (rest : Frame) : Bool := decide (zext n > rest.length)

/-- `p = f[3..3+N)`: the first `N` bytes after byte 2, unchanged, the bytes after them ignored (R83, R154,
R156). -/
def paramsOf (n : Byte) (rest : Frame) : List Byte := rest.take (zext n)

end Sys2Proof.Machine
end

