-- ==== Sys2Proof/Machine/Ops.lean ====
section
/-! DEFINITION. The shared operations: FIFO storage, PUSH and POP on the FIFO state, and the two checks
every transaction begins with.

CORE takes no exception and returns from none (60_exceptions.md R240, R250, R251): entering interrupt
context saves nothing, its whole effect is one PUSH (R249), and leaving it restores nothing. So `pushByte`
is the model's whole interrupt entry, and there is no saved state to return to. -/

namespace Sys2Proof.Machine

/-! ## FIFO storage -/

/-- What a cell that no PUSH has written since INIT reads as: no value (10_state.md R23; log 2). -/
def Memory.unlisted : Option Byte := none

/-- The byte written in cell `a`, if there is one. -/
def Memory.read? : Memory → Nat → Option Byte
  | [], _ => Memory.unlisted
  | (k, v) :: m, a => if a = k then some v else Memory.read? m a

/-- `MemWrite` on the list of cells, keeping the indices rising. -/
def Memory.write : Memory → Nat → Byte → Memory
  | [], a, b => [(a, b)]
  | (k, v) :: m, a, b =>
    if a < k then (a, b) :: (k, v) :: m
    else if a = k then (a, b) :: m
    else (k, v) :: Memory.write m a b

/-- Every index of the list lies above `a`. -/
def Memory.above (a : Nat) : Memory → Bool
  | [] => true
  | (k, _) :: m => decide (a < k) && Memory.above a m

/-- The canonical form: the indices rise strictly. (An unlisted cell has no value, so no listed cell can
hold it.) -/
def Memory.wf : Memory → Bool
  | [] => true
  | (k, _) :: m => Memory.above k m && Memory.wf m

/-- Cell `i` exists: `0 ≤ i < QCAP` (R23). -/
def State.cellExists (s : State) (i : Nat) : Bool := decide (i < s.par.qcap)

/-- The byte of cell `i`, or a free value where no PUSH has written it (R23, "any value"; log 2). The draw
advances the counter, so that no two draws are known to agree. -/
def State.readCell (s : State) (i : Nat) : Byte × State :=
  match s.qmem.read? i with
  | some b => (b, s)
  | none => (Config.freeByte s.freeDraws, { s with freeDraws := s.freeDraws + 1 })

/-- The FIFO's abstract content `Q`, oldest first (R28). A cell without a value adds nothing to it; the
invariant `FifoInv` rules that out. -/
def State.queue (s : State) : List Byte :=
  (List.range s.cnt).filterMap fun i => s.qmem.read? ((s.rd + i) % s.par.qcap)

/-! ## PUSH and POP on the FIFO state -/

/-- The body of PUSH (40_byte_queue.md R110): drop the byte when the FIFO is full, else write it at WR. -/
def State.pushByte (s : State) (b : Byte) : Except Fault (Bool × State) :=
  if s.cnt = s.par.qcap then .ok (false, s.note .queueOverflow)
  else if s.cellExists s.wr then
    .ok (true, { s with
      qmem := s.qmem.write s.wr b
      wr   := (s.wr + 1) % s.par.qcap
      cnt  := s.cnt + 1 })
  else .error .qmemOutOfRange

/-- The body of POP (R111): nothing from an empty FIFO, else the byte at RD, removed. -/
def State.popByte (s : State) : Except Fault (Option Byte × State) :=
  if s.cnt = 0 then .ok (none, s)
  else if s.cellExists s.rd then
    let r := s.readCell s.rd
    .ok (some r.1, { r.2 with
      rd  := (s.rd + 1) % s.par.qcap
      cnt := s.cnt - 1 })
  else .error .qmemOutOfRange

/-! ## The checks -/

/-- `if INIT_DONE = 0: refuse(NOT_INITIALIZED)` (10_state.md R31). -/
def State.afterInit (s : State) (k : Out) : Out :=
  if s.initDone then k else .refused .notInitialized

/-- `if <not ok>: refuse(WRONG_CONTEXT)` (60_exceptions.md R255, R262). -/
def whenAllowed (ok : Bool) (k : Out) : Out :=
  if ok then k else .refused .wrongContext

/-- The end of a transaction whose body may reach outside QMEM: the fault, or the next state. -/
def finish {α : Type} (r : Except Fault α) (k : α → State) : Out :=
  match r with
  | .error e => .fault e
  | .ok a => .next (k a)

end Sys2Proof.Machine
end

