-- ==== Sys2Proof/Machine/Decoder.lean ====
section
/-! DEFINITION. The frame decoder attached to CORE, a parameter (00_scope.md R8; 41_frame_interface.md
R131): the external one, or the test decoder TD of 95_test_vectors.md section 0. -/

namespace Sys2Proof.Machine

/-- TD's list of bytes `B`: the first `ctl` bytes of its scratch buffer. -/
def tdHeld (d : DecState) : List Byte := d.scratch.take d.ctl

/-- TD's `DecInit`: it holds no byte. What its scratch buffer has in it is never read; 0 is named. -/
def tdInit : DecState := { scratch := List.replicate tdBufSize 0#8, ctl := 0 }

/-- TD's `DecFeed`: the byte is written after those it holds, and they are emitted once there are
3 + byte 2 of them. -/
def tdFeed (d : DecState) (b : Byte) : DecState × Option Frame :=
  let d' : DecState := { scratch := d.scratch.set d.ctl b, ctl := d.ctl + 1 }
  let held := tdHeld d'
  if 3 ≤ held.length ∧ held.length = 3 + zext (held.getD 2 0#8) then ({ d' with ctl := 0 }, some held)
  else (d', none)

/-- `DecInit` of the attached decoder. -/
def decInit (p : Params) : DecState :=
  match p.decoder with
  | .external =>
    let r := Config.decInit p.fbufSize
    { scratch := r.1.toList, ctl := r.2 }
  | .fixtureTD => tdInit

/-- `DecFeed` of the attached decoder. -/
def decFeed (p : Params) (d : DecState) (b : Byte) : DecState × Option Frame :=
  match p.decoder with
  | .external =>
    let r := Config.decFeed p.fbufSize d b
    ({ scratch := r.1.1.toList, ctl := r.1.2 }, r.2.map Subtype.val)
  | .fixtureTD => tdFeed d b

end Sys2Proof.Machine
end

