-- ==== Sys2Proof/Machine/Context.lean ====
section
/-! DEFINITION. The two execution contexts and which transaction each may issue (60_exceptions.md R255,
R256): CORE's only access control (20_memory.md R58). -/

namespace Sys2Proof.Machine

/-- The rows of R255. FEED, SET_ADDR_CMD and the handler call are no transactions. -/
inductive Txn where
  | push
  | poll
  | pollIter
  | pop
  | onFrame
  | init
  | setAddress
  | getAddress
deriving DecidableEq, Repr

/-- The columns of R255. -/
inductive Context where
  | interrupt
  | pollIdle
  | pollPolling
deriving DecidableEq, Repr

/-- May the transaction be issued from the context? (R255.) The POP and the ON_FRAME that R255 allows
inside a POLL are parts of its iteration and come from no port, so they are not in this table. -/
def contextAllows : Txn → Context → Bool
  | .push,       .interrupt   => true
  | .push,       .pollIdle    => false
  | .push,       .pollPolling => false
  | .poll,       .interrupt   => false
  | .poll,       .pollIdle    => true
  | .poll,       .pollPolling => false
  | .pollIter,   .interrupt   => false
  | .pollIter,   .pollIdle    => false
  | .pollIter,   .pollPolling => true
  | .pop,        .interrupt   => false
  | .pop,        .pollIdle    => true
  | .pop,        .pollPolling => false
  | .onFrame,    .interrupt   => false
  | .onFrame,    .pollIdle    => true
  | .onFrame,    .pollPolling => false
  | .init,       .interrupt   => false
  | .init,       .pollIdle    => true
  | .init,       .pollPolling => false
  | .setAddress, .interrupt   => false
  | .setAddress, .pollIdle    => true
  | .setAddress, .pollPolling => false
  | .getAddress, .interrupt   => false
  | .getAddress, .pollIdle    => true
  | .getAddress, .pollPolling => false

/-- The consumer's context (R256). -/
def State.pollContext (s : State) : Context :=
  match s.cstate with
  | .idle => .pollIdle
  | .polling => .pollPolling

/-- The consumer's two checks, in the order of the pseudocode: INIT_DONE first, since CSTATE means nothing
before INIT (10_state.md R37), then R255. -/
def State.consumerMay (s : State) (t : Txn) (k : Out) : Out :=
  s.afterInit (whenAllowed (contextAllows t s.pollContext) k)

/-- The row of R255 an instruction falls under. A frame comes in as an ON_FRAME; a reserved word is no
transaction. -/
def txnOf : Instr → Option Txn
  | .push _ => some .push
  | .pop => some .pop
  | .poll => some .poll
  | .onFrame _ => some .onFrame
  | .init _ => some .init
  | .setAddress _ => some .setAddress
  | .getAddress => some .getAddress
  | .portReserved0 _ => none
  | .portReserved8 _ => none
  | .portReserved9 _ => none
  | .portReservedA _ => none
  | .portReservedB _ => none
  | .portReservedC _ => none
  | .portReservedD _ => none
  | .portReservedE _ => none
  | .portReservedF _ => none
  | .reservedInvalid00 _ _ _ => some .onFrame
  | .setBlinkMask _ _ _ => some .onFrame
  | .setBlinkSpeed _ _ _ => some .onFrame
  | .setContrastA _ _ _ => some .onFrame
  | .setContrastB _ _ _ => some .onFrame
  | .printString _ _ _ => some .onFrame
  | .setScrollSpeed _ _ _ => some .onFrame
  | .saveSettings _ _ _ => some .onFrame
  | .addTempFont _ _ _ => some .onFrame
  | .setHighlight _ _ _ => some .onFrame
  | .setContrastTable _ _ _ => some .onFrame
  | .unassigned0B _ _ _ => some .onFrame
  | .unassigned0C0F _ _ _ _ => some .onFrame
  | .unassigned101F _ _ _ _ => some .onFrame
  | .unassigned203F _ _ _ _ => some .onFrame
  | .unassigned407F _ _ _ _ => some .onFrame
  | .unassigned809F _ _ _ _ => some .onFrame
  | .setDeviceAddress _ _ _ => some .onFrame
  | .unassignedA1 _ _ _ => some .onFrame
  | .unassignedA2A3 _ _ _ _ => some .onFrame
  | .unassignedA4A7 _ _ _ _ => some .onFrame
  | .unassignedA8AF _ _ _ _ => some .onFrame
  | .unassignedB0BF _ _ _ _ => some .onFrame
  | .unassignedC0DF _ _ _ _ => some .onFrame
  | .unassignedE0EF _ _ _ _ => some .onFrame
  | .unassignedF0F7 _ _ _ _ => some .onFrame
  | .unassignedF8FB _ _ _ _ => some .onFrame
  | .unassignedFCFD _ _ _ _ => some .onFrame
  | .hello _ _ _ => some .onFrame
  | .system _ _ _ => some .onFrame

/-- May an agent issue the transaction in any state at all? The producer's column of R255, or one of the
consumer's two (R90). -/
def agentMay (who : Issuer) (t : Txn) : Bool :=
  match who with
  | .producer => contextAllows t .interrupt
  | .consumer => contextAllows t .pollIdle || contextAllows t .pollPolling
  | .secondProducer => false
  | .handler => false

end Sys2Proof.Machine
end

