-- ==== Sys2Proof/Machine/Address.lean ====
section
/-! DEFINITION. The device-address register's transactions INIT, SET_ADDRESS and GET_ADDRESS, and its
write-on-command (43_address.md R200 to R205). -/

namespace Sys2Proof.Machine

/-- The writes of INIT (R200): the FIFO emptied, the decoder back at DecInit. QMEM's contents become
unspecified: no cell keeps a value (10_state.md R37; log 2). TRACE and DIAG are kept (R35). -/
def State.initialised (s : State) (a : Byte) : State :=
  { s with
    devAddr  := a
    qmem     := []
    rd       := 0
    wr       := 0
    cnt      := 0
    dec      := decInit s.par
    cstate   := .idle
    initDone := true }

/-- INIT (R200): refused only inside a POLL. -/
def execInit (a : Byte) (s : State) : Out :=
  whenAllowed (!s.initDone || contextAllows .init s.pollContext)
    (.next ((s.initialised a).returning .nothing))

/-- SET_ADDRESS (R201). -/
def execSetAddress (v : Byte) (s : State) : Out :=
  s.consumerMay .setAddress (.next ({ s with devAddr := v }.returning .nothing))

/-- GET_ADDRESS (R202). -/
def execGetAddress (s : State) : Out :=
  s.consumerMay .getAddress (.next (s.returning (.address s.devAddr)))

/-- SET_ADDR_CMD, the internal handler of command 0xA0 (R203): DEV_ADDR takes the first parameter, if there
is one. -/
def State.setAddrCmd (s : State) (p : List Byte) : State :=
  match p with
  | [] => s
  | v :: _ => { s with devAddr := v }

end Sys2Proof.Machine
end

