-- ==== Sys2Proof/Machine/Commands.lean ====
section
/-! DEFINITION. The command family: what each command code of the table does once its frame has passed the
dispatcher's checks, and the meaning of a frame that carries it (42_dispatcher.md R160 to R172).

A command's effect `cmd…` is said once: the frame's own meaning `exec…` uses it, and so does the dispatcher
that ON_FRAME and FEED call (Machine/Dispatcher.lean). What an external handler does with its parameters is
outside the block (00_scope.md R9; log 22). -/

namespace Sys2Proof.Machine

/-- Steps 2 to 3a of ON_FRAME for a frame `[addr, _, n] ++ rest` (R152 to R154), and then the effect on its
parameters; each discard ends it with one outcome code and nothing else (R158). -/
def frameThen (addr n : Byte) (rest : Frame) (effect : List Byte → State → State) (s : State) : State :=
  if matchAddr s.devAddr addr then
    if declaresTooMany n rest then s.note .lengthMismatch
    else effect (paramsOf n rest) s
  else s.note .foreignAddress

/-- A frame delivered to ON_FRAME (R150), whose command has the given effect. In which CSTATE an ON_FRAME may
be issued is the port's matter (R255): inside a POLL the frame comes from FEED (log 14). -/
def onFrameOf (addr n : Byte) (rest : Frame) (effect : List Byte → State → State) (s : State) : Out :=
  s.afterInit (.next ((frameThen addr n rest effect s).returning .nothing))

/-- Step 5 for an entry without a handler (R156, R171, R172). -/
def reservedNoop (_ : List Byte) (s : State) : State := s.note .reservedNoop

/-- Step 5 for a code without an entry (R156, R173). -/
def unknownCommand (_ : List Byte) (s : State) : State := s.note .unknownCommand

/-! ## The effects -/

/-- SET_BLINK_MASK (R160). -/
def cmdSetBlinkMask (p : List Byte) (s : State) : State :=
  (s.emit 0x01#8 p).note .dispatched

/-- SET_BLINK_SPEED (R161). -/
def cmdSetBlinkSpeed (p : List Byte) (s : State) : State :=
  (s.emit 0x02#8 p).note .dispatched

/-- SET_CONTRAST_A (R162). -/
def cmdSetContrastA (p : List Byte) (s : State) : State :=
  (s.emit 0x03#8 p).note .dispatched

/-- SET_CONTRAST_B (R163). -/
def cmdSetContrastB (p : List Byte) (s : State) : State :=
  (s.emit 0x04#8 p).note .dispatched

/-- PRINT_STRING (R164). -/
def cmdPrintString (p : List Byte) (s : State) : State :=
  (s.emit 0x05#8 p).note .dispatched

/-- SET_SCROLL_SPEED (R165). -/
def cmdSetScrollSpeed (p : List Byte) (s : State) : State :=
  (s.emit 0x06#8 p).note .dispatched

/-- SAVE_SETTINGS (R166). -/
def cmdSaveSettings (p : List Byte) (s : State) : State :=
  (s.emit 0x07#8 p).note .dispatched

/-- ADD_TEMP_FONT (R167). -/
def cmdAddTempFont (p : List Byte) (s : State) : State :=
  (s.emit 0x08#8 p).note .dispatched

/-- SET_HIGHLIGHT (R168). -/
def cmdSetHighlight (p : List Byte) (s : State) : State :=
  (s.emit 0x09#8 p).note .dispatched

/-- SET_CONTRAST_TABLE (R169). -/
def cmdSetContrastTable (p : List Byte) (s : State) : State :=
  (s.emit 0x0A#8 p).note .dispatched

/-- SET_DEVICE_ADDRESS (R170): the event, and the write-on-command in the same step (43_address.md R203). -/
def cmdSetDeviceAddress (p : List Byte) (s : State) : State :=
  ((s.emit 0xA0#8 p).setAddrCmd p).note .dispatched

/-- HELLO (R171): nothing but the outcome code. -/
def cmdHello (p : List Byte) (s : State) : State := reservedNoop p s

/-- SYSTEM (R172): nothing but the outcome code. -/
def cmdSystem (p : List Byte) (s : State) : State := reservedNoop p s

/-! ## The frames -/

/-- A SET_BLINK_MASK frame (R160). -/
def execSetBlinkMask (addr n : Byte) (rest : Frame) (s : State) : Out :=
  onFrameOf addr n rest cmdSetBlinkMask s

/-- A SET_BLINK_SPEED frame (R161). -/
def execSetBlinkSpeed (addr n : Byte) (rest : Frame) (s : State) : Out :=
  onFrameOf addr n rest cmdSetBlinkSpeed s

/-- A SET_CONTRAST_A frame (R162). -/
def execSetContrastA (addr n : Byte) (rest : Frame) (s : State) : Out :=
  onFrameOf addr n rest cmdSetContrastA s

/-- A SET_CONTRAST_B frame (R163). -/
def execSetContrastB (addr n : Byte) (rest : Frame) (s : State) : Out :=
  onFrameOf addr n rest cmdSetContrastB s

/-- A PRINT_STRING frame (R164). -/
def execPrintString (addr n : Byte) (rest : Frame) (s : State) : Out :=
  onFrameOf addr n rest cmdPrintString s

/-- A SET_SCROLL_SPEED frame (R165). -/
def execSetScrollSpeed (addr n : Byte) (rest : Frame) (s : State) : Out :=
  onFrameOf addr n rest cmdSetScrollSpeed s

/-- A SAVE_SETTINGS frame (R166). -/
def execSaveSettings (addr n : Byte) (rest : Frame) (s : State) : Out :=
  onFrameOf addr n rest cmdSaveSettings s

/-- A ADD_TEMP_FONT frame (R167). -/
def execAddTempFont (addr n : Byte) (rest : Frame) (s : State) : Out :=
  onFrameOf addr n rest cmdAddTempFont s

/-- A SET_HIGHLIGHT frame (R168). -/
def execSetHighlight (addr n : Byte) (rest : Frame) (s : State) : Out :=
  onFrameOf addr n rest cmdSetHighlight s

/-- A SET_CONTRAST_TABLE frame (R169). -/
def execSetContrastTable (addr n : Byte) (rest : Frame) (s : State) : Out :=
  onFrameOf addr n rest cmdSetContrastTable s

/-- A SET_DEVICE_ADDRESS frame (R170). -/
def execSetDeviceAddress (addr n : Byte) (rest : Frame) (s : State) : Out :=
  onFrameOf addr n rest cmdSetDeviceAddress s

/-- A HELLO frame (R171). -/
def execHello (addr n : Byte) (rest : Frame) (s : State) : Out :=
  onFrameOf addr n rest cmdHello s

/-- A SYSTEM frame (R172). -/
def execSystem (addr n : Byte) (rest : Frame) (s : State) : Out :=
  onFrameOf addr n rest cmdSystem s

end Sys2Proof.Machine
end

