-- ==== Sys2Proof/Machine/Table.lean ====
section
/-! DEFINITION. The command table CMD_TABLE (10_state.md R29; 42_dispatcher.md R155, R159, R174), a
constant: no transaction writes it (20_memory.md R65). -/

namespace Sys2Proof.Machine

/-- The handlers of R159: ten external ones, and CORE's own for 0xA0. -/
inductive Handler where
  | setBlinkMask
  | setBlinkSpeed
  | setContrastA
  | setContrastB
  | printString
  | setScrollSpeed
  | saveSettings
  | addTempFont
  | setHighlight
  | setContrastTable
  | setDeviceAddress
deriving DecidableEq, Repr

/-- The values of CMD_TABLE (R29). -/
inductive Entry where
  | handler (h : Handler)
  | noHandler
  | absent
deriving DecidableEq, Repr

/-- A command table as it is constructed: codes with their entries, in order. -/
abbrev CommandTable := List (Byte × Entry)

/-- Is the code listed? -/
def CommandTable.lists : CommandTable → Byte → Bool
  | [], _ => false
  | (k, _) :: t, c => k == c || CommandTable.lists t c

/-- Construction of a command table: a code entered twice is refused (R174). -/
def constructTable : CommandTable → Except Refusal CommandTable
  | [] => .ok []
  | (c, e) :: t =>
    if CommandTable.lists t c then .error .duplicateCode
    else match constructTable t with
      | .ok t' => .ok ((c, e) :: t')
      | .error r => .error r

/-- The linear scan of R155, first match wins; a code without an entry is Absent (R29). -/
def CommandTable.lookup : CommandTable → Byte → Entry
  | [], _ => .absent
  | (k, e) :: t, c => if k = c then e else CommandTable.lookup t c

/-- The 13 entries of R159. The system code stands at 0xFF by decision D14. -/
def commandRows : CommandTable :=
  [(0x01#8, .handler .setBlinkMask),
   (0x02#8, .handler .setBlinkSpeed),
   (0x03#8, .handler .setContrastA),
   (0x04#8, .handler .setContrastB),
   (0x05#8, .handler .printString),
   (0x06#8, .handler .setScrollSpeed),
   (0x07#8, .handler .saveSettings)] ++
  [(0x08#8, .handler .addTempFont),
   (0x09#8, .handler .setHighlight),
   (0x0A#8, .handler .setContrastTable),
   (0xA0#8, .handler .setDeviceAddress),
   (0xFE#8, .noHandler),
   (0xFF#8, .noHandler)]

/-- `CMD_TABLE(c)` (R29, R155). -/
def cmdTable (c : Byte) : Entry := commandRows.lookup c

end Sys2Proof.Machine
end

