-- ==== Sys2Proof/Machine/Dispatcher.lean ====
section
/-! DEFINITION. ON_FRAME, the dispatcher's only entry point: validation, table lookup and the handler
multiplexer (42_dispatcher.md R150 to R158). -/

namespace Sys2Proof.Machine

/-- The handler multiplexer's selected handler (R156, R159). -/
def callHandler : Handler → List Byte → State → State
  | .setBlinkMask => cmdSetBlinkMask
  | .setBlinkSpeed => cmdSetBlinkSpeed
  | .setContrastA => cmdSetContrastA
  | .setContrastB => cmdSetContrastB
  | .printString => cmdPrintString
  | .setScrollSpeed => cmdSetScrollSpeed
  | .saveSettings => cmdSaveSettings
  | .addTempFont => cmdAddTempFont
  | .setHighlight => cmdSetHighlight
  | .setContrastTable => cmdSetContrastTable
  | .setDeviceAddress => cmdSetDeviceAddress

/-- Step 5 (R156): what a table entry does with the parameters. -/
def runEntry : Entry → List Byte → State → State
  | .handler h => callHandler h
  | .noHandler => reservedNoop
  | .absent => unknownCommand

/-- The steps of ON_FRAME (R150), run to completion (R175). An absent frame or one of fewer than 3 bytes is
discarded before anything of it is read (R151). -/
def State.onFrame (s : State) (fo : Option Frame) : State :=
  match fo with
  | some (addr :: cmd :: n :: rest) => frameThen addr n rest (runEntry (cmdTable cmd)) s
  | _ => s.note .malformedFrame

/-- ON_FRAME issued at the port (R150): a test bench's DELIVER, standing in for the decoder
(30_encoding.md R89). -/
def execOnFrame (payload : Option Frame) (s : State) : Out :=
  s.consumerMay .onFrame (.next ((s.onFrame payload).returning .nothing))

end Sys2Proof.Machine
end

