-- ==== Sys2Proof/Machine/Poll.lean ====
section
/-! DEFINITION. The poll loop: FEED (41_frame_interface.md R130), POLL and its iterations
(44_poll_loop.md R220 to R224). -/

namespace Sys2Proof.Machine

/-- FEED (R130): one byte to the decoder, and a completed frame to the dispatcher in the same step
(R132). No copy of the frame is kept (R133). -/
def State.feed (s : State) (b : Byte) : State :=
  let r := decFeed s.par s.dec b
  let s' := { s with dec := r.1 }
  match r.2 with
  | none => s'
  | some f => s'.onFrame (some f)

/-- What an iteration does with the result of its POP (R221). -/
def afterPop (r : Option Byte × State) : State :=
  match r.1 with
  | none => { r.2 with cstate := .idle }.returning (.iteration .empty)
  | some b => (r.2.feed b).returning (.iteration .more)

/-- POLL_ITER, one iteration of a POLL and one atomic step (R221). -/
def pollIter (s : State) : Out :=
  s.consumerMay .pollIter (finish s.popByte afterPop)

/-- POLL (R220): the entry of the loop. The iterations are steps of their own (30_encoding.md R93), which
the machine goes on to perform (Machine/Serve.lean; log 13). -/
def execPoll (s : State) : Out :=
  s.consumerMay .poll (.next ({ s with cstate := .polling }.returning .nothing))

end Sys2Proof.Machine
end

