-- ==== Sys2Proof/Machine/Queue.lean ====
section
/-! DEFINITION. The byte FIFO's transactions PUSH and POP (40_byte_queue.md R110 to R117). -/

namespace Sys2Proof.Machine

/-- PUSH (R110): the interrupt's whole effect on CORE (60_exceptions.md R249). No state of the consumer can
make it wait (R112, R253). -/
def execPush (b : Byte) (s : State) : Out :=
  s.afterInit (finish (s.pushByte b) fun r => r.2.returning (.accepted r.1))

/-- POP issued at the port by a test bench (R111; 30_encoding.md R89). The byte is not fed to the decoder
(41_frame_interface.md R130). -/
def execPop (s : State) : Out :=
  s.consumerMay .pop (finish s.popByte fun r => r.2.returning (.popped r.1))

end Sys2Proof.Machine
end

