-- ==== Sys2Proof/Machine/Reserved.lean ====
section
/-! DEFINITION. The reserved port selectors: refused, with no step and no change of state
(30_encoding.md R90; 60_exceptions.md R262). -/

namespace Sys2Proof.Machine

/-- PORT_RESERVED_0x0 (R90). -/
def execPortReserved0 (_opd : Byte) (_s : State) : Out := .refused .reservedSelector

/-- PORT_RESERVED_0x8 (R90). -/
def execPortReserved8 (_opd : Byte) (_s : State) : Out := .refused .reservedSelector

/-- PORT_RESERVED_0x9 (R90). -/
def execPortReserved9 (_opd : Byte) (_s : State) : Out := .refused .reservedSelector

/-- PORT_RESERVED_0xA (R90). -/
def execPortReservedA (_opd : Byte) (_s : State) : Out := .refused .reservedSelector

/-- PORT_RESERVED_0xB (R90). -/
def execPortReservedB (_opd : Byte) (_s : State) : Out := .refused .reservedSelector

/-- PORT_RESERVED_0xC (R90). -/
def execPortReservedC (_opd : Byte) (_s : State) : Out := .refused .reservedSelector

/-- PORT_RESERVED_0xD (R90). -/
def execPortReservedD (_opd : Byte) (_s : State) : Out := .refused .reservedSelector

/-- PORT_RESERVED_0xE (R90). -/
def execPortReservedE (_opd : Byte) (_s : State) : Out := .refused .reservedSelector

/-- PORT_RESERVED_0xF (R90). -/
def execPortReservedF (_opd : Byte) (_s : State) : Out := .refused .reservedSelector

end Sys2Proof.Machine
end

