-- ==== Sys2Proof/Machine/Unassigned.lean ====
section
/-! DEFINITION. The codes without a table entry: a frame that carries one, and passes the checks, is
discarded with no effect (42_dispatcher.md R173). One meaning for each row of the opcode table. -/

namespace Sys2Proof.Machine

/-- A RESERVED_INVALID_0x00 frame (R173). -/
def execReservedInvalid00 (addr : Byte) (n : Byte) (rest : Frame) (s : State) : Out :=
  onFrameOf addr n rest unknownCommand s

/-- A UNASSIGNED_0x0B frame (R173). -/
def execUnassigned0B (addr : Byte) (n : Byte) (rest : Frame) (s : State) : Out :=
  onFrameOf addr n rest unknownCommand s

/-- A UNASSIGNED_0x0C-0x0F frame (R173). -/
def execUnassigned0C0F (addr : Byte) (_x : BitVec 2) (n : Byte) (rest : Frame) (s : State) : Out :=
  onFrameOf addr n rest unknownCommand s

/-- A UNASSIGNED_0x10-0x1F frame (R173). -/
def execUnassigned101F (addr : Byte) (_x : BitVec 4) (n : Byte) (rest : Frame) (s : State) : Out :=
  onFrameOf addr n rest unknownCommand s

/-- A UNASSIGNED_0x20-0x3F frame (R173). -/
def execUnassigned203F (addr : Byte) (_x : BitVec 5) (n : Byte) (rest : Frame) (s : State) : Out :=
  onFrameOf addr n rest unknownCommand s

/-- A UNASSIGNED_0x40-0x7F frame (R173). -/
def execUnassigned407F (addr : Byte) (_x : BitVec 6) (n : Byte) (rest : Frame) (s : State) : Out :=
  onFrameOf addr n rest unknownCommand s

/-- A UNASSIGNED_0x80-0x9F frame (R173). -/
def execUnassigned809F (addr : Byte) (_x : BitVec 5) (n : Byte) (rest : Frame) (s : State) : Out :=
  onFrameOf addr n rest unknownCommand s

/-- A UNASSIGNED_0xA1 frame (R173). -/
def execUnassignedA1 (addr : Byte) (n : Byte) (rest : Frame) (s : State) : Out :=
  onFrameOf addr n rest unknownCommand s

/-- A UNASSIGNED_0xA2-0xA3 frame (R173). -/
def execUnassignedA2A3 (addr : Byte) (_x : BitVec 1) (n : Byte) (rest : Frame) (s : State) : Out :=
  onFrameOf addr n rest unknownCommand s

/-- A UNASSIGNED_0xA4-0xA7 frame (R173). -/
def execUnassignedA4A7 (addr : Byte) (_x : BitVec 2) (n : Byte) (rest : Frame) (s : State) : Out :=
  onFrameOf addr n rest unknownCommand s

/-- A UNASSIGNED_0xA8-0xAF frame (R173). -/
def execUnassignedA8AF (addr : Byte) (_x : BitVec 3) (n : Byte) (rest : Frame) (s : State) : Out :=
  onFrameOf addr n rest unknownCommand s

/-- A UNASSIGNED_0xB0-0xBF frame (R173). -/
def execUnassignedB0BF (addr : Byte) (_x : BitVec 4) (n : Byte) (rest : Frame) (s : State) : Out :=
  onFrameOf addr n rest unknownCommand s

/-- A UNASSIGNED_0xC0-0xDF frame (R173). -/
def execUnassignedC0DF (addr : Byte) (_x : BitVec 5) (n : Byte) (rest : Frame) (s : State) : Out :=
  onFrameOf addr n rest unknownCommand s

/-- A UNASSIGNED_0xE0-0xEF frame (R173). -/
def execUnassignedE0EF (addr : Byte) (_x : BitVec 4) (n : Byte) (rest : Frame) (s : State) : Out :=
  onFrameOf addr n rest unknownCommand s

/-- A UNASSIGNED_0xF0-0xF7 frame (R173). -/
def execUnassignedF0F7 (addr : Byte) (_x : BitVec 3) (n : Byte) (rest : Frame) (s : State) : Out :=
  onFrameOf addr n rest unknownCommand s

/-- A UNASSIGNED_0xF8-0xFB frame (R173). -/
def execUnassignedF8FB (addr : Byte) (_x : BitVec 2) (n : Byte) (rest : Frame) (s : State) : Out :=
  onFrameOf addr n rest unknownCommand s

/-- A UNASSIGNED_0xFC-0xFD frame (R173). -/
def execUnassignedFCFD (addr : Byte) (_x : BitVec 1) (n : Byte) (rest : Frame) (s : State) : Out :=
  onFrameOf addr n rest unknownCommand s

end Sys2Proof.Machine
end

