-- ==== Sys2Proof/Machine/Dispatch.lean ====
section
/-! DEFINITION. One arm for each constructor of Instr. -/

namespace Sys2Proof.Machine

def exec (i : Instr) (s : State) : Host.Outcome State Fault Refusal :=
  match i with
  -- FRAME (30_encoding.md R86)
  | .reservedInvalid00 addr n rest => Sys2Proof.Machine.execReservedInvalid00 addr n rest s
  | .setBlinkMask addr n rest => Sys2Proof.Machine.execSetBlinkMask addr n rest s
  | .setBlinkSpeed addr n rest => Sys2Proof.Machine.execSetBlinkSpeed addr n rest s
  | .setContrastA addr n rest => Sys2Proof.Machine.execSetContrastA addr n rest s
  | .setContrastB addr n rest => Sys2Proof.Machine.execSetContrastB addr n rest s
  | .printString addr n rest => Sys2Proof.Machine.execPrintString addr n rest s
  | .setScrollSpeed addr n rest => Sys2Proof.Machine.execSetScrollSpeed addr n rest s
  | .saveSettings addr n rest => Sys2Proof.Machine.execSaveSettings addr n rest s
  | .addTempFont addr n rest => Sys2Proof.Machine.execAddTempFont addr n rest s
  | .setHighlight addr n rest => Sys2Proof.Machine.execSetHighlight addr n rest s
  | .setContrastTable addr n rest => Sys2Proof.Machine.execSetContrastTable addr n rest s
  | .unassigned0B addr n rest => Sys2Proof.Machine.execUnassigned0B addr n rest s
  | .unassigned0C0F addr x n rest => Sys2Proof.Machine.execUnassigned0C0F addr x n rest s
  | .unassigned101F addr x n rest => Sys2Proof.Machine.execUnassigned101F addr x n rest s
  | .unassigned203F addr x n rest => Sys2Proof.Machine.execUnassigned203F addr x n rest s
  | .unassigned407F addr x n rest => Sys2Proof.Machine.execUnassigned407F addr x n rest s
  | .unassigned809F addr x n rest => Sys2Proof.Machine.execUnassigned809F addr x n rest s
  | .setDeviceAddress addr n rest => Sys2Proof.Machine.execSetDeviceAddress addr n rest s
  | .unassignedA1 addr n rest => Sys2Proof.Machine.execUnassignedA1 addr n rest s
  | .unassignedA2A3 addr x n rest => Sys2Proof.Machine.execUnassignedA2A3 addr x n rest s
  | .unassignedA4A7 addr x n rest => Sys2Proof.Machine.execUnassignedA4A7 addr x n rest s
  | .unassignedA8AF addr x n rest => Sys2Proof.Machine.execUnassignedA8AF addr x n rest s
  | .unassignedB0BF addr x n rest => Sys2Proof.Machine.execUnassignedB0BF addr x n rest s
  | .unassignedC0DF addr x n rest => Sys2Proof.Machine.execUnassignedC0DF addr x n rest s
  | .unassignedE0EF addr x n rest => Sys2Proof.Machine.execUnassignedE0EF addr x n rest s
  | .unassignedF0F7 addr x n rest => Sys2Proof.Machine.execUnassignedF0F7 addr x n rest s
  | .unassignedF8FB addr x n rest => Sys2Proof.Machine.execUnassignedF8FB addr x n rest s
  | .unassignedFCFD addr x n rest => Sys2Proof.Machine.execUnassignedFCFD addr x n rest s
  | .hello addr n rest => Sys2Proof.Machine.execHello addr n rest s
  | .system addr n rest => Sys2Proof.Machine.execSystem addr n rest s
  -- PORT (30_encoding.md R89)
  | .push b => Sys2Proof.Machine.execPush b s
  | .pop => Sys2Proof.Machine.execPop s
  | .poll => Sys2Proof.Machine.execPoll s
  | .onFrame payload => Sys2Proof.Machine.execOnFrame payload s
  | .init a => Sys2Proof.Machine.execInit a s
  | .setAddress v => Sys2Proof.Machine.execSetAddress v s
  | .getAddress => Sys2Proof.Machine.execGetAddress s
  | .portReserved0 opd => Sys2Proof.Machine.execPortReserved0 opd s
  | .portReserved8 opd => Sys2Proof.Machine.execPortReserved8 opd s
  | .portReserved9 opd => Sys2Proof.Machine.execPortReserved9 opd s
  | .portReservedA opd => Sys2Proof.Machine.execPortReservedA opd s
  | .portReservedB opd => Sys2Proof.Machine.execPortReservedB opd s
  | .portReservedC opd => Sys2Proof.Machine.execPortReservedC opd s
  | .portReservedD opd => Sys2Proof.Machine.execPortReservedD opd s
  | .portReservedE opd => Sys2Proof.Machine.execPortReservedE opd s
  | .portReservedF opd => Sys2Proof.Machine.execPortReservedF opd s

end Sys2Proof.Machine
end

