-- ==== Sys2Proof/Machine/Serve.lean ====
section
/-! DEFINITION. How CORE takes the requests at its ports, one after the other in their total order
(20_memory.md R59; 30_encoding.md R89, R90; 60_exceptions.md R255, R262). -/

namespace Sys2Proof.Machine

/-- May the agent issue the instruction? A reserved word is no agent's transaction: it is refused for its
selector (R90), whoever issues it. -/
def mayIssue (who : Issuer) (i : Instr) : Bool :=
  match txnOf i with
  | none => true
  | some t => agentMay who t

/-- One port transaction of the producer or the consumer (R89, R90). An undecodable word is refused for that
first (log 11). -/
def servePort (who : Issuer) (w : PortWord) (payload : Option Frame) (s : State) : Out :=
  match decodePort w payload with
  | .error _ => .refused .nonzeroOperand
  | .ok i => whenAllowed (mayIssue who i) (exec i s)

/-- One iteration of the POLL in progress (R92 `POLL_ITER`): the consumer's. -/
def servePollIter (who : Issuer) (s : State) : Out :=
  whenAllowed (agentMay who .pollIter) (pollIter s)

/-- The POLL in progress is not over, so the rest of it stays the next request. -/
def State.keepPolling (s : State) (r : Request) : State :=
  match s.cstate with
  | .polling => { s with pending := r :: s.pending }
  | .idle => s

/-- The rest of the POLL in progress, iterations back to back (R93). -/
def servePollRest (r : Request) (s : State) : Out :=
  match servePollIter r.issuer s with
  | .next s' => .next (s'.keepPolling r)
  | .fault e => .fault e
  | .refused e => .refused e

/-- What a legitimate agent's request asks for. -/
def serveBody (r : Request) (s : State) : Out :=
  match r.body with
  | .port w payload => servePort r.issuer w payload s
  | .pollIter => servePollIter r.issuer s
  | .pollRest => servePollRest r s

/-- One request, taken from the head of the order. A second producer's, and a handler's, are refused
(R114, R175; log 8). -/
def serve (r : Request) (s : State) : Out :=
  match r.issuer with
  | .secondProducer => .refused .overlappingProducer
  | .handler => .refused .reentrantCall
  | .producer => serveBody r s
  | .consumer => serveBody r s

/-- Is a POLL in progress? -/
def State.inPoll (s : State) : Bool := s.initDone && s.cstate == .polling

/-- No request is pending: a POLL in progress goes on (R220, R224), and otherwise nothing happens
(log 12). -/
def idleStep (s : State) : Out :=
  if s.inPoll then pollIter s else .next s

/-- The request that a test bench puts at the ports to have the words taken: a frame is delivered by ON_FRAME
(R91), a PUSH comes from the producer, and any other word from the consumer. -/
def requestOf : Words → Request
  | .frame f => { issuer := .consumer, body := .port 0x400#12 (some f) }
  | .port w payload =>
    if w.extractLsb' 8 4 = 0x1#4 then { issuer := .producer, body := .port w payload }
    else { issuer := .consumer, body := .port w payload }

/-- Does the transaction need INIT to have run? All but INIT do (10_state.md R31); a reserved or undecodable
word is none. -/
def needsInit (ws : Words) : Bool :=
  match decode ws with
  | .error _ => false
  | .ok i =>
    match txnOf i with
    | none => false
    | some t => t != .init

/-- Boot steps 2 and 3 (70_reset_and_hazards.md R281): a machine on which INIT has not run is set up with
CFG_INIT_ADDR. "Until step 3 is done, no rule of CORE holds" (log 15). -/
def State.booted (s : State) : State :=
  if s.initDone then s else s.initialised s.par.cfgInitAddr

/-- The words made the very next thing the machine takes. -/
def State.withWords (s : State) (ws : Words) : State :=
  let s' := if needsInit ws then s.booted else s
  { s' with pending := requestOf ws :: s'.pending }

end Sys2Proof.Machine
end

