-- ==== Sys2Proof/Machine/Script.lean ====
section
/-! DEFINITION. The script syntax of 30_encoding.md R92 and its pseudo-instructions (R93): what each line
puts at the ports. -/

namespace Sys2Proof.Machine

/-- A line of a script (R92, R93), its agent included. -/
inductive Line where
  /-- `P: PUSH b` -/
  | push (b : Byte)
  /-- `P: SEND [b0, …]` -/
  | send (bs : List Byte)
  /-- `C: POP` -/
  | pop
  /-- `C: POLL`, every iteration back to back -/
  | poll
  /-- The opening line of a written-out POLL -/
  | pollOpen
  /-- `C: POLL_ITER` -/
  | pollIter
  /-- The closing line of a written-out POLL: notation only -/
  | pollClose
  /-- `C: DELIVER …` -/
  | deliver (payload : Option Frame)
  /-- `C: INIT a` -/
  | init (a : Byte)
  /-- `C: SET_ADDRESS v` -/
  | setAddress (v : Byte)
  /-- `C: GET_ADDRESS` -/
  | getAddress
deriving DecidableEq, Repr

/-- `FRAME(a, c, [p…])`: the bytes `[a, c, N, p…]` (R93). -/
def frameBytes (a c : Byte) (p : List Byte) : Frame := a :: c :: BitVec.ofNat 8 p.length :: p

/-- The producer's request for a word. -/
def producerWord (w : PortWord) : Request := { issuer := .producer, body := .port w none }

/-- The consumer's request for a word. -/
def consumerWord (w : PortWord) (payload : Option Frame) : Request :=
  { issuer := .consumer, body := .port w payload }

/-- What a line puts at the ports, in order (R92, R93). -/
def Line.requests : Line → List Request
  | .push b => [producerWord (0x1#4 ++ b)]
  | .send bs => bs.map fun b => producerWord (0x1#4 ++ b)
  | .pop => [consumerWord 0x200#12 none]
  | .poll => [consumerWord 0x300#12 none, { issuer := .consumer, body := .pollRest }]
  | .pollOpen => [consumerWord 0x300#12 none]
  | .pollIter => [{ issuer := .consumer, body := .pollIter }]
  | .pollClose => []
  | .deliver payload => [consumerWord 0x400#12 payload]
  | .init a => [consumerWord (0x5#4 ++ a) none]
  | .setAddress v => [consumerWord (0x6#4 ++ v) none]
  | .getAddress => [consumerWord 0x700#12 none]

/-- What a script puts at the ports: its lines' requests in the order written, which is the total order in
which they take effect (R92; 20_memory.md R59). -/
def scriptRequests (ls : List Line) : List Request := ls.flatMap Line.requests

end Sys2Proof.Machine
end

