-- ==== Sys2Proof/Machine/Step.lean ====
section
/-! DEFINITION. The step: the next request in the total order is taken and served (20_memory.md R59), and
where none is pending a POLL in progress goes on. -/

namespace Sys2Proof.Machine

/-- One step of CORE. -/
def step (s : State) : Host.Outcome State Fault Refusal :=
  match s.pending with
  | [] => idleStep s
  | r :: rest => serve r { s with pending := rest }

/-- `s` with the instruction of an opcode-table word as the very next thing it takes: its request at the
head of the order, on a machine that INIT has set up where the instruction needs that (log 15). -/
def State.withFetchWord (s : State) (nbits w : Nat) : State :=
  match tableWords nbits w with
  | none => s
  | some ws => s.withWords ws

end Sys2Proof.Machine
end

