-- ==== Sys2Proof/Machine/Run.lean ====
section
/-! DEFINITION. The requests that arrive while the machine runs (00_scope.md R6; 20_memory.md R59): a step
with an input. -/

namespace Sys2Proof.Machine

/-- The requests that the agents issue now, after those they have issued: each agent keeps its own order
(R59). -/
def State.arriving (s : State) (rs : List Request) : State := { s with pending := s.pending ++ rs }

/-- One step, the requests `rs` having arrived before it. -/
def stepWith (rs : List Request) (s : State) : Out := step (s.arriving rs)

end Sys2Proof.Machine
end

