-- ==== Sys2Proof/Safety.lean ====
section
/-! DEFINITION. What a sound state of CORE is, what a step takes from the ports, and when a decoder keeps
its contract: the terms the claims are stated in. -/

namespace Sys2Proof.Machine

/-- Every cell that holds a byte exists (10_state.md R23). -/
def Memory.within (n : Nat) : Memory → Bool
  | [] => true
  | (k, _) :: m => decide (k < n) && Memory.within n m

/-- The FIFO's invariant (10_state.md R24 to R27), and that every pending byte is one a PUSH wrote (R23). -/
abbrev FifoInv (s : State) : Prop :=
  s.rd < s.par.qcap ∧ s.wr < s.par.qcap ∧ s.cnt ≤ s.par.qcap ∧
  s.wr = (s.rd + s.cnt) % s.par.qcap ∧
  ∀ i < s.cnt, (s.qmem.read? ((s.rd + i) % s.par.qcap)).isSome = true

/-- The scratch buffer has FBUF_SIZE bytes (10_state.md R30; 20_memory.md R50). -/
abbrev ScratchInv (s : State) : Prop := s.dec.scratch.length = s.par.fbufSize

/-- The invariant every step keeps. Before INIT the FIFO's registers are unspecified (R37), so the FIFO's part
is asked only once INIT has run. -/
abbrev Inv (s : State) : Prop :=
  s.qmem.wf = true ∧ s.qmem.within s.par.qcap = true ∧ ScratchInv s ∧ (s.initDone = true → FifoInv s)

/-- The next request is the port transaction `i` of the agent `who`, and `rest` are the requests after it. -/
def Takes (s : State) (who : Issuer) (i : Instr) (rest : List Request) : Prop :=
  ∃ w payload, s.pending = { issuer := who, body := .port w payload } :: rest ∧
    decodePort w payload = .ok i

/-- The next thing to happen is an iteration of the POLL in progress: one that the order names, the rest of a
POLL, or the POLL that goes on because nothing else is pending. -/
def Iterates (s : State) : Prop :=
  (∃ rest, s.pending = { issuer := .consumer, body := .pollIter } :: rest) ∨
  (∃ rest, s.pending = { issuer := .consumer, body := .pollRest } :: rest) ∨
  (s.pending = [] ∧ s.inPoll = true)

/-- The requests of a schedule of producer PUSHes (`some b`) and iterations of the POLL in progress
(`none`). -/
def scheduleRequests (l : List (Option Byte)) : List Request :=
  l.map fun o =>
    match o with
    | some b => producerWord (0x1#4 ++ b)
    | none => { issuer := .consumer, body := .pollIter }

/-! ## Runs that do not end

The requests of a run arrive one list a step, for ever, so a producer may go on for ever (44_poll_loop.md
R223; 92_eei_decisions.md D19). -/

/-- An execution under the requests that arrive: `inputs k` before the step that leads from `states k` to
`states (k + 1)`. -/
def IsRun (inputs : Nat → List Request) (states : Nat → State) : Prop :=
  ∀ k, stepWith (inputs k) (states k) = .next (states (k + 1))

/-- The step from `states k` is an iteration of a POLL. -/
def IteratesAt (inputs : Nat → List Request) (states : Nat → State) (k : Nat) : Prop :=
  Iterates ((states k).arriving (inputs k))

/-- The step from `states k` is a PUSH that is accepted. -/
def AcceptsAt (inputs : Nat → List Request) (states : Nat → State) (k : Nat) : Prop :=
  (∃ b rest, Takes ((states k).arriving (inputs k)) .producer (.push b) rest) ∧
    (states (k + 1)).ret = .accepted true

/-- The fairness premise of R223: "the producer makes finitely many accepted PUSHes". -/
def ProducerFair (inputs : Nat → List Request) (states : Nat → State) : Prop :=
  ∃ n, ∀ k, n ≤ k → ¬ AcceptsAt inputs states k

/-- The consumer is not held up for ever (R224 "POLL never waits"; log 23): however far the run has come, an
iteration follows, or the POLL is over. -/
def ConsumerGoesOn (inputs : Nat → List Request) (states : Nat → State) : Prop :=
  ∀ n, ∃ k, n ≤ k ∧ (IteratesAt inputs states k ∨ (states k).cstate = .idle)

end Sys2Proof.Machine
end

