-- ==== Sys2Proof/Certificates/Slice0/Obligations.lean ====
section
/-! DEFINITION. The statements for the provers. Each is about every state unless it says otherwise; a
statement that needs a sound FIFO takes the invariant `Inv` as a premise, and `InvariantHoldsAtReset` and
`StepKeepsTheInvariant` state that it holds at reset and is kept. -/

open Sys2Proof Sys2Proof.Machine

/-- The decoder reads the words of the spec as what they stand for. (95_test_vectors.md section 0 (PORT words); 95_test_vectors.md sections 1.2, 2.3 and 2.4; 30_encoding.md R86, R89) -/
def Obligations.DecodeReadsTheSpecsWords : Prop :=
  decode (.frame [0x05, 0x01, 0x02, 0x01, 0x02]) = .ok (.setBlinkMask 0x05 0x02 [0x01, 0x02]) ∧
  decode (.frame [0x00, 0x07, 0x00]) = .ok (.saveSettings 0x00 0x00 []) ∧
  decode (.frame [0x05, 0xA0, 0x01, 0x09]) = .ok (.setDeviceAddress 0x05 0x01 [0x09]) ∧
  decode (.frame [0x05, 0xFE, 0x00]) = .ok (.hello 0x05 0x00 []) ∧
  decode (.frame [0x05, 0xFF, 0x00]) = .ok (.system 0x05 0x00 []) ∧
  decode (.frame [0x05, 0x00, 0x00]) = .ok (.reservedInvalid00 0x05 0x00 []) ∧
  decode (.frame [0x05, 0x9F, 0x00]) = .ok (.unassigned809F 0x05 0b11111 0x00 []) ∧
  decode (.frame [0x05, 0xA1, 0x00]) = .ok (.unassignedA1 0x05 0x00 []) ∧
  decode (.port 0x105 none) = .ok (.push 0x05) ∧
  decode (.port 0x200 none) = .ok .pop ∧
  decode (.port 0x300 none) = .ok .poll ∧
  decode (.port 0x400 (some [0x05, 0x01, 0x00])) = .ok (.onFrame (some [0x05, 0x01, 0x00])) ∧
  decode (.port 0x505 none) = .ok (.init 0x05) ∧
  decode (.port 0x609 none) = .ok (.setAddress 0x09) ∧
  decode (.port 0x700 none) = .ok .getAddress

/-- Decoding the words of any instruction gives that instruction back. (30_encoding.md sections 1 to 3 (R80 to R91)) -/
def Obligations.DecodeEncodeGivesTheInstructionBack : Prop :=
  ∀ i : Instr, decode (encode i) = .ok i

/-- Encoding what was decoded gives the words back, and only short frames are no instruction. (30_encoding.md sections 1 to 3 (R80 to R91)) -/
def Obligations.EncodeDecodeGivesTheWordsBack : Prop :=
  (∀ f : Frame, 3 ≤ f.length → ∃ i, decode (.frame f) = .ok i ∧ encode i = .frame f) ∧
  (∀ f : Frame, f.length < 3 → decode (.frame f) = .error .shortFrame) ∧
  (∀ (w : PortWord) (i : Instr), decode (.port w none) = .ok i → encode i = .port w none)

/-- Every frame header matches exactly one FRAME row of the opcode table, the decoded one. (30_encoding.md R82, R86; opcode_table.json) -/
def Obligations.EveryCommandCodeIsOneTableRow : Prop :=
  ∀ (addr cmd n : Byte) (rest : Frame),
    (frameRows.filter (·.matches (headerPattern addr cmd n).toNat)).map (·.mnemonic) =
      [mnemonicOf (decodeCommand addr cmd n rest)]

/-- A port word matches the one PORT row of what it decodes to, or no row at all. (30_encoding.md R89, R90; opcode_table.json) -/
def Obligations.PortWordsMatchTheTable : Prop :=
  ∀ (w : PortWord) (payload : Option Frame),
    (∀ i, decodePort w payload = .ok i →
      (portRows.filter (·.matches w.toNat)).map (·.mnemonic) = [mnemonicOf i]) ∧
    (∀ e, decodePort w payload = .error e →
      e = .nonzeroOperand ∧ portRows.filter (·.matches w.toNat) = [])

/-- CMD_TABLE holds the 13 entries of R159 and no other. (R159) -/
def Obligations.CommandTableHoldsItsThirteenEntries : Prop :=
  ∀ c : Byte, cmdTable c =
    if c = 0x01 then .handler .setBlinkMask
    else if c = 0x02 then .handler .setBlinkSpeed
    else if c = 0x03 then .handler .setContrastA
    else if c = 0x04 then .handler .setContrastB
    else if c = 0x05 then .handler .printString
    else if c = 0x06 then .handler .setScrollSpeed
    else if c = 0x07 then .handler .saveSettings
    else if c = 0x08 then .handler .addTempFont
    else if c = 0x09 then .handler .setHighlight
    else if c = 0x0A then .handler .setContrastTable
    else if c = 0xA0 then .handler .setDeviceAddress
    else if c = 0xFE then .noHandler
    else if c = 0xFF then .noHandler
    else .absent

/-- A command table with a code entered twice is refused at construction, and only such a one. (R174) -/
def Obligations.DuplicateCodesAreRefusedAtConstruction : Prop :=
  (∀ t : CommandTable, (t.map Prod.fst).Nodup → constructTable t = .ok t) ∧
  (∀ t : CommandTable, ¬ (t.map Prod.fst).Nodup → constructTable t = .error .duplicateCode) ∧
  (commandRows.map Prod.fst).Nodup

/-- Reset leaves INIT_DONE = 0 and TRACE and DIAG empty. (10_state.md R37; 70_reset_and_hazards.md R280 (first sentence)) -/
def Obligations.ResetLeavesInitDoneClearAndTheListsEmpty : Prop :=
  State.reset.initDone = false ∧ State.reset.trace = [] ∧ State.reset.diag = []

/-- The invariant holds at reset. Its reset values are the model's choice (log 1 and 2). (10_state.md R24 to R27, R30, R37) -/
def Obligations.InvariantHoldsAtReset : Prop :=
  Inv State.reset

/-- Every step keeps the invariant: the FIFO positions, the count, the storage and the scratch buffer stay sound. (10_state.md R23 to R27, R30; 20_memory.md R50) -/
def Obligations.StepKeepsTheInvariant : Prop :=
  ∀ s t : State, Inv s → step s = .next t → Inv t

/-- INIT_DONE: 0 at reset, set by INIT alone, and nothing but INIT is served before it. (R31) -/
def Obligations.InitDoneIsWrittenByInitAloneAndGuardsEverythingElse : Prop :=
  State.reset.initDone = false ∧
  (∀ (a : Byte) (s t : State), exec (.init a) s = .next t → t.initDone = true) ∧
  (∀ (a : Byte) (s : State), s.initDone = false → ∃ t, exec (.init a) s = .next t) ∧
  (∀ s t : State, step s = .next t → t.initDone ≠ s.initDone →
    ∃ a rest, Takes s .consumer (.init a) rest) ∧
  (∀ (s : State) (who : Issuer) (i : Instr) (x : Txn) (rest : List Request), s.initDone = false →
    Takes s who i rest → txnOf i = some x → x ≠ .init → agentMay who x = true →
    step s = .refused .notInitialized) ∧
  (∀ (s : State) (body : Body) (rest : List Request), s.initDone = false →
    body = .pollIter ∨ body = .pollRest →
    s.pending = { issuer := .consumer, body := body } :: rest → step s = .refused .notInitialized)

/-- INIT writes the address, empties the FIFO, resets the decoder and CSTATE, and keeps TRACE and DIAG. (43_address.md R200; 10_state.md R37) -/
def Obligations.InitSetsTheBlockUp : Prop :=
  (∀ (a : Byte) (s : State), (s.initDone = true → s.cstate = .idle) →
    ∃ t, exec (.init a) s = .next t ∧ t.devAddr = a ∧ t.rd = 0 ∧ t.wr = 0 ∧ t.cnt = 0 ∧ t.queue = [] ∧
      t.dec = decInit s.par ∧ t.cstate = .idle ∧ t.initDone = true ∧ t.trace = s.trace ∧
      t.diag = s.diag ∧ t.par = s.par ∧ t.pending = s.pending ∧ t.ret = .nothing ∧
      t.freeDraws = s.freeDraws) ∧
  (∀ (a : Byte) (s : State), s.initDone = true → s.cstate = .polling →
    exec (.init a) s = .refused .wrongContext)

/-- SET_ADDRESS writes DEV_ADDR and nothing else, any value, between POLLs only. (43_address.md R201; 60_exceptions.md R255) -/
def Obligations.SetAddressWritesTheRegister : Prop :=
  (∀ (v : Byte) (s : State), s.initDone = true → s.cstate = .idle →
    exec (.setAddress v) s = .next { s with devAddr := v, ret := .nothing }) ∧
  (∀ (v : Byte) (s : State), s.initDone = false → exec (.setAddress v) s = .refused .notInitialized) ∧
  (∀ (v : Byte) (s : State), s.initDone = true → s.cstate = .polling →
    exec (.setAddress v) s = .refused .wrongContext)

/-- GET_ADDRESS returns DEV_ADDR and changes nothing, between POLLs only. (43_address.md R202; 60_exceptions.md R255) -/
def Obligations.GetAddressReturnsTheRegister : Prop :=
  (∀ s : State, s.initDone = true → s.cstate = .idle →
    exec .getAddress s = .next { s with ret := .address s.devAddr }) ∧
  (∀ s : State, s.initDone = false → exec .getAddress s = .refused .notInitialized) ∧
  (∀ s : State, s.initDone = true → s.cstate = .polling →
    exec .getAddress s = .refused .wrongContext)

/-- A write of DEV_ADDR governs the very next filter decision, whichever of the three wrote it. (43_address.md R204) -/
def Obligations.AddressWritesTakeEffectAtOnce : Prop :=
  ∀ (v : Byte) (s t : State),
    (exec (.init v) s = .next t ∨ exec (.setAddress v) s = .next t ∨
      ∃ addr n p, (addr = s.devAddr ∨ addr = 0) ∧ 1 ≤ zext n ∧ zext n ≤ p.length + 1 ∧
        exec (.setDeviceAddress addr n (v :: p)) s = .next t) →
    ∀ (j : Instr) (a c n : Byte) (rest : Frame), frameOf j = some (a :: c :: n :: rest) →
      (a ≠ v → a ≠ 0 →
        exec j t = .next { t with diag := t.diag ++ [.foreignAddress], ret := .nothing }) ∧
      (a = v → ∃ u k, exec j t = .next u ∧ u.diag = t.diag ++ [k] ∧ k ≠ .foreignAddress)

/-- DEV_ADDR changes only by INIT, by SET_ADDRESS, or by a command 0xA0 that carries the new value. (10_state.md R22, R38; 43_address.md R203) -/
def Obligations.DeviceAddressHasThreeWriters : Prop :=
  ∀ s t : State, step s = .next t → t.devAddr ≠ s.devAddr →
    (∃ rest, Takes s .consumer (.init t.devAddr) rest) ∨
    (∃ rest, Takes s .consumer (.setAddress t.devAddr) rest) ∨
    (((∃ fo rest, Takes s .consumer (.onFrame fo) rest) ∨ Iterates s) ∧
      ∃ p, t.trace = s.trace ++ [{ code := 0xA0, params := t.devAddr :: p }])

/-- WR, RD, CNT, DEC, CSTATE and QMEM change only by the transactions the spec lets write them. (10_state.md R23 to R26, R30, R32, R38) -/
def Obligations.FifoAndSequencerHaveTheirWritersOnly : Prop :=
  ∀ s t : State, step s = .next t →
    (t.wr ≠ s.wr →
      (∃ b rest, Takes s .producer (.push b) rest) ∨ ∃ a rest, Takes s .consumer (.init a) rest) ∧
    (t.rd ≠ s.rd →
      (∃ rest, Takes s .consumer .pop rest) ∨ Iterates s ∨ ∃ a rest, Takes s .consumer (.init a) rest) ∧
    (t.cnt ≠ s.cnt →
      (∃ b rest, Takes s .producer (.push b) rest) ∨ (∃ rest, Takes s .consumer .pop rest) ∨
      Iterates s ∨ ∃ a rest, Takes s .consumer (.init a) rest) ∧
    (t.dec ≠ s.dec → Iterates s ∨ ∃ a rest, Takes s .consumer (.init a) rest) ∧
    (t.cstate ≠ s.cstate →
      (∃ rest, Takes s .consumer .poll rest) ∨ Iterates s ∨ ∃ a rest, Takes s .consumer (.init a) rest) ∧
    (∀ k, t.qmem.read? k ≠ s.qmem.read? k →
      (∃ b rest, Takes s .producer (.push b) rest ∧ k = s.wr ∧ t.qmem.read? k = some b) ∨
      ∃ a rest, Takes s .consumer (.init a) rest)

/-- TRACE and DIAG are empty at reset and only grow. (10_state.md R35) -/
def Obligations.TraceAndDiagOnlyGrow : Prop :=
  (State.reset.trace = [] ∧ State.reset.diag = []) ∧
  ∀ s t : State, step s = .next t → s.trace <+: t.trace ∧ s.diag <+: t.diag

/-- No step changes the parameters of the block. (10_state.md R20; 00_scope.md R7, R8, R10) -/
def Obligations.ParametersAreConstant : Prop :=
  ∀ s t : State, step s = .next t → t.par = s.par

/-- PUSH writes the byte at WR, or drops it when the FIFO is full. (40_byte_queue.md R110, R113; 60_exceptions.md R242) -/
def Obligations.PushWritesTheByteOrDropsIt : Prop :=
  (∀ (b : Byte) (s : State), s.initDone = true → s.cnt = s.par.qcap →
    exec (.push b) s = .next { s with diag := s.diag ++ [.queueOverflow], ret := .accepted false }) ∧
  (∀ (b : Byte) (s : State), s.initDone = true → s.cnt ≠ s.par.qcap → s.wr < s.par.qcap →
    ∃ m : Memory, exec (.push b) s = .next { s with
        qmem := m, wr := (s.wr + 1) % s.par.qcap, cnt := s.cnt + 1, ret := .accepted true } ∧
      m.read? s.wr = some b ∧ ∀ k, k ≠ s.wr → m.read? k = s.qmem.read? k) ∧
  (∀ (b : Byte) (s : State), s.initDone = false → exec (.push b) s = .refused .notInitialized)

/-- POP returns the byte at RD and steps RD and CNT, or returns none from an empty FIFO. The free value and its counter are the model's (log 2 and 3). (40_byte_queue.md R111; 10_state.md R23; 60_exceptions.md R255) -/
def Obligations.PopTakesTheOldestByte : Prop :=
  (∀ s : State, s.initDone = true → s.cstate = .idle → s.cnt = 0 →
    exec .pop s = .next { s with ret := .popped none }) ∧
  (∀ s : State, s.initDone = true → s.cstate = .idle → s.cnt ≠ 0 → s.rd < s.par.qcap →
    ∃ (b : Byte) (d : Nat), exec .pop s = .next { s with
        rd := (s.rd + 1) % s.par.qcap, cnt := s.cnt - 1, ret := .popped (some b), freeDraws := d } ∧
      ∀ c, s.qmem.read? s.rd = some c → b = c ∧ d = s.freeDraws) ∧
  (∀ s : State, s.initDone = false → exec .pop s = .refused .notInitialized) ∧
  (∀ s : State, s.initDone = true → s.cstate = .polling → exec .pop s = .refused .wrongContext)

/-- The FIFO is a queue: every step acts on its content Q as R60 says, and no free value is drawn. (20_memory.md R57, R60, R61; 10_state.md R23, R28; 41_frame_interface.md R130) -/
def Obligations.FifoKeepsOrderAndLosesNothing : Prop :=
  ∀ s t : State, Inv s → s.initDone = true → step s = .next t →
    s.queue.length = s.cnt ∧ t.freeDraws = s.freeDraws ∧
    (∀ b rest, Takes s .producer (.push b) rest →
      (s.queue.length < s.par.qcap ∧ t.queue = s.queue ++ [b] ∧ t.ret = .accepted true) ∨
      (s.queue.length = s.par.qcap ∧ t.queue = s.queue ∧ t.ret = .accepted false)) ∧
    (∀ rest, Takes s .consumer .pop rest →
      (s.queue = [] ∧ t.queue = [] ∧ t.ret = .popped none) ∨
      ∃ b, s.queue = b :: t.queue ∧ t.ret = .popped (some b)) ∧
    (Iterates s →
      (s.queue = [] ∧ t.queue = [] ∧ t.ret = .iteration .empty ∧ t.cstate = .idle ∧ t.dec = s.dec) ∨
      ∃ b, s.queue = b :: t.queue ∧ t.ret = .iteration .more ∧ t.dec = (decFeed s.par s.dec b).1) ∧
    (∀ a rest, Takes s .consumer (.init a) rest → t.queue = []) ∧
    ((∀ b rest, ¬ Takes s .producer (.push b) rest) → (∀ rest, ¬ Takes s .consumer .pop rest) →
      ¬ Iterates s → (∀ a rest, ¬ Takes s .consumer (.init a) rest) → t.queue = s.queue)

/-- From an empty FIFO, k PUSHes accept the first min(k, QCAP) bytes, in order, and reject the rest. (R117) -/
def Obligations.CapacityLaw : Prop :=
  ∀ (s : State) (bs : List Byte), Inv s → s.initDone = true → s.cnt = 0 →
    s.pending = bs.map (fun b => producerWord (0x1#4 ++ b)) →
    (∀ j < bs.length, ∃ u, Host.Core.run core (j + 1) s = .next u ∧
      u.ret = .accepted (decide (j < s.par.qcap))) ∧
    ∃ t, Host.Core.run core bs.length s = .next t ∧ t.queue = bs.take s.par.qcap ∧
      t.diag = s.diag ++ List.replicate (bs.length - s.par.qcap) .queueOverflow

/-- A PUSH and a POP requested together: the four edge cases of R116, and that between the edges the order makes no difference. That an order is a list is the model's inference (log 7). (40_byte_queue.md R116; 20_memory.md R59) -/
def Obligations.PushAndPopAtTheSameMoment : Prop :=
  ∀ (s : State) (b : Byte) (rest : List Request), Inv s → s.initDone = true → s.cstate = .idle →
    (s.cnt = s.par.qcap → ∃ u t,
      Host.Core.run core 1 { s with pending := consumerWord 0x200 none :: producerWord (0x1#4 ++ b) :: rest }
        = .next u ∧ step u = .next t ∧ t.ret = .accepted true ∧ t.queue = s.queue.tail ++ [b]) ∧
    (s.cnt = s.par.qcap → ∃ u t,
      Host.Core.run core 1 { s with pending := producerWord (0x1#4 ++ b) :: consumerWord 0x200 none :: rest }
        = .next u ∧ u.ret = .accepted false ∧ step u = .next t ∧ t.queue = s.queue.tail) ∧
    (s.cnt = 0 → ∃ u t,
      Host.Core.run core 1 { s with pending := producerWord (0x1#4 ++ b) :: consumerWord 0x200 none :: rest }
        = .next u ∧ step u = .next t ∧ t.ret = .popped (some b) ∧ t.queue = []) ∧
    (s.cnt = 0 → ∃ u t,
      Host.Core.run core 1 { s with pending := consumerWord 0x200 none :: producerWord (0x1#4 ++ b) :: rest }
        = .next u ∧ u.ret = .popped none ∧ step u = .next t ∧ t.queue = [b]) ∧
    (0 < s.cnt → s.cnt < s.par.qcap → ∃ (x : Byte) (u t u' t' : State),
      Host.Core.run core 1 { s with pending := consumerWord 0x200 none :: producerWord (0x1#4 ++ b) :: rest }
        = .next u ∧ u.ret = .popped (some x) ∧ step u = .next t ∧ t.ret = .accepted true ∧
      Host.Core.run core 1 { s with pending := producerWord (0x1#4 ++ b) :: consumerWord 0x200 none :: rest }
        = .next u' ∧ u'.ret = .accepted true ∧ step u' = .next t' ∧ t'.ret = .popped (some x) ∧
      s.queue.head? = some x ∧ t.queue = s.queue.tail ++ [b] ∧ { t' with ret := t.ret } = t)

/-- Whenever INIT_DONE = 1 a PUSH can take effect next, whatever the consumer is doing. (R253) -/
def Obligations.PushAlwaysHasAStep : Prop :=
  ∀ (s : State) (b : Byte) (rest : List Request), Inv s → s.initDone = true →
    s.pending = producerWord (0x1#4 ++ b) :: rest → ∃ t, step s = .next t ∧ t.pending = rest

/-- Interrupt context saves nothing and changes no consumer state. (60_exceptions.md R249, R250, R251; 10_state.md R38) -/
def Obligations.PushTouchesNoStateOfTheConsumer : Prop :=
  ∀ (b : Byte) (s t : State), exec (.push b) s = .next t →
    t.devAddr = s.devAddr ∧ t.rd = s.rd ∧ t.initDone = s.initDone ∧ t.dec = s.dec ∧
    t.cstate = s.cstate ∧ t.trace = s.trace ∧ t.par = s.par ∧ t.pending = s.pending ∧
    (t.diag = s.diag ∨ t.diag = s.diag ++ [.queueOverflow] ∧ t.ret = .accepted false)

/-- An accepted PUSH between the POP and the FEED of an iteration gives the state of one after the iteration. (44_poll_loop.md R222) -/
def Obligations.PushInsideAnIterationMakesNoDifference : Prop :=
  (∀ (s t : State) (x b : Byte) (acc : Bool), s.cnt ≠ s.par.qcap → s.pushByte b = .ok (acc, t) →
    (s.feed x).pushByte b = .ok (acc, t.feed x)) ∧
  (∀ (s u : State) (x : Byte), Inv s → s.initDone = true → s.popByte = .ok (some x, u) →
    u.cnt ≠ u.par.qcap)

/-- A frame that is absent or shorter than 3 bytes is discarded before anything of it is read. (R151; R243) -/
def Obligations.ShortOrAbsentFramesAreDiscarded : Prop :=
  ∀ (fo : Option Frame) (s : State), s.initDone = true → s.cstate = .idle →
    (fo = none ∨ ∃ f, fo = some f ∧ f.length < 3) →
    exec (.onFrame fo) s = .next { s with diag := s.diag ++ [.malformedFrame], ret := .nothing }

/-- A frame whose byte 0 is neither DEV_ADDR nor 0 is discarded, whatever its command. (R244) -/
def Obligations.ForeignFramesAreDiscarded : Prop :=
  ∀ (i : Instr) (a c n : Byte) (rest : Frame) (s : State), frameOf i = some (a :: c :: n :: rest) →
    s.initDone = true → a ≠ s.devAddr → a ≠ 0 →
    exec i s = .next { s with diag := s.diag ++ [.foreignAddress], ret := .nothing }

/-- An accepted frame that declares more parameters than it holds is discarded, whatever its command. (R246) -/
def Obligations.FramesDeclaringTooManyParametersAreDiscarded : Prop :=
  ∀ (i : Instr) (a c n : Byte) (rest : Frame) (s : State), frameOf i = some (a :: c :: n :: rest) →
    s.initDone = true → a = s.devAddr ∨ a = 0 → zext n > rest.length →
    exec i s = .next { s with diag := s.diag ++ [.lengthMismatch], ret := .nothing }

/-- After INIT every frame completes, and touches nothing but DEV_ADDR, TRACE and DIAG. (42_dispatcher.md R150, R158; 20_memory.md R57) -/
def Obligations.FramesAlwaysComplete : Prop :=
  (∀ (i : Instr) (f : Frame) (s : State), frameOf i = some f → s.initDone = true →
    ∃ a tr k, exec i s = .next { s with
      devAddr := a, trace := s.trace ++ tr, diag := s.diag ++ [k], ret := .nothing }) ∧
  (∀ (i : Instr) (f : Frame) (s : State), frameOf i = some f → s.initDone = false →
    exec i s = .refused .notInitialized)

/-- The generic dispatcher and the per-command rules agree on every frame. That a frame has its meaning in any CSTATE is the model's inference (log 14). (42_dispatcher.md R150, R155, R156 and R160 to R173; 30_encoding.md R86) -/
def Obligations.TheTableDispatcherRunsEachCommandsRule : Prop :=
  (∀ (i : Instr) (f : Frame) (s : State), frameOf i = some f → s.initDone = true →
    exec i s = .next ((s.onFrame (some f)).returning .nothing)) ∧
  (∀ (i : Instr) (f : Frame) (s : State), frameOf i = some f → s.cstate = .idle →
    exec (.onFrame (some f)) s = exec i s)

/-- A frame leads to one handler call exactly when the five conditions of R176 hold. (R176) -/
def Obligations.OnFrameCallsAHandlerExactlyWhen : Prop :=
  ∀ (fo : Option Frame) (s : State), s.initDone = true → s.cstate = .idle →
    ∃ t, exec (.onFrame fo) s = .next t ∧
      (∀ (a c n : Byte) (rest : Frame) (h : Handler), fo = some (a :: c :: n :: rest) →
        (a = s.devAddr ∨ a = 0) → zext n ≤ rest.length → cmdTable c = .handler h →
        t.trace = s.trace ++ [{ code := c, params := rest.take (zext n) }]) ∧
      ((¬ ∃ (a c n : Byte) (rest : Frame) (h : Handler), fo = some (a :: c :: n :: rest) ∧
          (a = s.devAddr ∨ a = 0) ∧ zext n ≤ rest.length ∧ cmdTable c = .handler h) →
        t.trace = s.trace)

/-- Every ON_FRAME records exactly one outcome: the first check that fails, in the order of R150. (R248) -/
def Obligations.OnFrameRecordsTheFirstCheckThatFails : Prop :=
  ∀ (fo : Option Frame) (s : State), s.initDone = true → s.cstate = .idle →
    ∃ t, exec (.onFrame fo) s = .next t ∧ t.diag = s.diag ++ [
      match fo with
      | some (a :: c :: n :: rest) =>
        if a ≠ s.devAddr ∧ a ≠ 0 then .foreignAddress
        else if zext n > rest.length then .lengthMismatch
        else match cmdTable c with
          | .handler _ => .dispatched
          | .noHandler => .reservedNoop
          | .absent => .unknownCommand
      | _ => .malformedFrame]

/-- A discarded frame changes DIAG alone, and no frame touches the FIFO or DEC. (R158) -/
def Obligations.DiscardsHaveNoOtherEffect : Prop :=
  ∀ (fo : Option Frame) (s t : State), exec (.onFrame fo) s = .next t →
    (t.diag ≠ s.diag ++ [.dispatched] → t = { s with diag := t.diag, ret := .nothing }) ∧
    t = { s with devAddr := t.devAddr, trace := t.trace, diag := t.diag, ret := .nothing }

/-- Each of the ten external commands makes exactly its own handler call, with its parameters. (42_dispatcher.md section 3 (R160 to R169); 42_dispatcher.md R156) -/
def Obligations.ExternalCommandsInvokeTheirHandlers : Prop :=
  ∀ (addr n : Byte) (rest : Frame) (s : State), s.initDone = true → addr = s.devAddr ∨ addr = 0 → zext n ≤ rest.length →
    let called (c : Byte) : State := { s with
      trace := s.trace ++ [{ code := c, params := rest.take (zext n) }]
      diag := s.diag ++ [.dispatched]
      ret := .nothing }
    exec (.setBlinkMask addr n rest) s = .next (called 0x01) ∧
    exec (.setBlinkSpeed addr n rest) s = .next (called 0x02) ∧
    exec (.setContrastA addr n rest) s = .next (called 0x03) ∧
    exec (.setContrastB addr n rest) s = .next (called 0x04) ∧
    exec (.printString addr n rest) s = .next (called 0x05) ∧
    exec (.setScrollSpeed addr n rest) s = .next (called 0x06) ∧
    exec (.saveSettings addr n rest) s = .next (called 0x07) ∧
    exec (.addTempFont addr n rest) s = .next (called 0x08) ∧
    exec (.setHighlight addr n rest) s = .next (called 0x09) ∧
    exec (.setContrastTable addr n rest) s = .next (called 0x0A)

/-- Command 0xA0 makes its handler call and writes its first parameter to DEV_ADDR; with N = 0 it writes nothing. (42_dispatcher.md R170; 43_address.md R203) -/
def Obligations.SetDeviceAddressWritesItsFirstParameter : Prop :=
  (∀ (addr : Byte) (rest : Frame) (s : State), s.initDone = true → addr = s.devAddr ∨ addr = 0 →
    exec (.setDeviceAddress addr 0 rest) s = .next { s with
      trace := s.trace ++ [{ code := 0xA0, params := [] }]
      diag := s.diag ++ [.dispatched]
      ret := .nothing }) ∧
  (∀ (addr n v : Byte) (p : Frame) (s : State), s.initDone = true → addr = s.devAddr ∨ addr = 0 →
    1 ≤ zext n → zext n ≤ p.length + 1 →
    exec (.setDeviceAddress addr n (v :: p)) s = .next { s with
      devAddr := v
      trace := s.trace ++ [{ code := 0xA0, params := v :: p.take (zext n - 1) }]
      diag := s.diag ++ [.dispatched]
      ret := .nothing })

/-- HELLO and SYSTEM are accepted and do nothing. (42_dispatcher.md R171, R172; 60_exceptions.md R247) -/
def Obligations.HelloAndSystemDoNothing : Prop :=
  ∀ (addr n : Byte) (rest : Frame) (s : State), s.initDone = true → addr = s.devAddr ∨ addr = 0 → zext n ≤ rest.length →
    let idle : State := { s with diag := s.diag ++ [.reservedNoop], ret := .nothing }
    exec (.hello addr n rest) s = .next idle ∧ exec (.system addr n rest) s = .next idle

/-- The codes without a table entry are discarded with no invocation and no error. (42_dispatcher.md R173; 60_exceptions.md R245) -/
def Obligations.CodesWithoutAnEntryDoNothing : Prop :=
  ∀ (addr n : Byte) (rest : Frame) (s : State) (x1 : BitVec 1) (x2 : BitVec 2) (x3 : BitVec 3)
    (x4 : BitVec 4) (x5 : BitVec 5) (x6 : BitVec 6),
    s.initDone = true → addr = s.devAddr ∨ addr = 0 → zext n ≤ rest.length →
    let gone : State := { s with diag := s.diag ++ [.unknownCommand], ret := .nothing }
    exec (.reservedInvalid00 addr n rest) s = .next gone ∧
    exec (.unassigned0B addr n rest) s = .next gone ∧
    exec (.unassigned0C0F addr x2 n rest) s = .next gone ∧
    exec (.unassigned101F addr x4 n rest) s = .next gone ∧
    exec (.unassigned203F addr x5 n rest) s = .next gone ∧
    exec (.unassigned407F addr x6 n rest) s = .next gone ∧
    exec (.unassigned809F addr x5 n rest) s = .next gone ∧
    exec (.unassignedA1 addr n rest) s = .next gone ∧
    exec (.unassignedA2A3 addr x1 n rest) s = .next gone ∧
    exec (.unassignedA4A7 addr x2 n rest) s = .next gone ∧
    exec (.unassignedA8AF addr x3 n rest) s = .next gone ∧
    exec (.unassignedB0BF addr x4 n rest) s = .next gone ∧
    exec (.unassignedC0DF addr x5 n rest) s = .next gone ∧
    exec (.unassignedE0EF addr x4 n rest) s = .next gone ∧
    exec (.unassignedF0F7 addr x3 n rest) s = .next gone ∧
    exec (.unassignedF8FB addr x2 n rest) s = .next gone ∧
    exec (.unassignedFCFD addr x1 n rest) s = .next gone

/-- POLL starts its loop between POLLs, and does not nest. (44_poll_loop.md R220; 30_encoding.md R93) -/
def Obligations.PollEntersPolling : Prop :=
  (∀ s : State, s.initDone = true → s.cstate = .idle →
    exec .poll s = .next { s with cstate := .polling, ret := .nothing }) ∧
  (∀ s : State, s.initDone = false → exec .poll s = .refused .notInitialized) ∧
  (∀ s : State, s.initDone = true → s.cstate = .polling → exec .poll s = .refused .wrongContext)

/-- One POLL iteration pops one byte, feeds it, and dispatches a completed frame, all in one step. The rest of a POLL stays the next request until its EMPTY. That a POLL goes on where no request is pending is the model's inference (log 12). (44_poll_loop.md R220, R221; 41_frame_interface.md R130, R132; 30_encoding.md R93) -/
def Obligations.AnIterationPopsFeedsAndDispatches : Prop :=
  ∀ (s : State) (rest again : List Request), s.initDone = true →
    (s.pending = { issuer := .consumer, body := .pollIter } :: rest ∧ again = rest ∨
      s.pending = { issuer := .consumer, body := .pollRest } :: rest ∧ again = s.pending ∨
      s.pending = [] ∧ rest = [] ∧ again = [] ∧ s.cstate = .polling) →
    (s.cstate = .idle → step s = .refused .wrongContext) ∧
    (s.cstate = .polling → s.cnt = 0 →
      step s = .next { s with pending := rest, cstate := .idle, ret := .iteration .empty }) ∧
    (∀ b, s.cstate = .polling → s.cnt ≠ 0 → s.rd < s.par.qcap → s.qmem.read? s.rd = some b →
      let u : State := { s with
        pending := again, rd := (s.rd + 1) % s.par.qcap, cnt := s.cnt - 1
        dec := (decFeed s.par s.dec b).1 }
      ((decFeed s.par s.dec b).2 = none → step s = .next { u with ret := .iteration .more }) ∧
      (∀ f, (decFeed s.par s.dec b).2 = some f →
        step s = .next ((u.onFrame (some f)).returning (.iteration .more))))

/-- The frame that an iteration completes runs as the instruction it decodes to, in every form of a POLL. That a POLL goes on where no request is pending is the model's inference (log 12). (41_frame_interface.md R130, R132; 44_poll_loop.md R221; 42_dispatcher.md R150; 30_encoding.md R93) -/
def Obligations.AFrameCompletedInAPollRunsItsInstruction : Prop :=
  ∀ (s : State) (rest again : List Request) (b : Byte) (f : Frame) (i : Instr), s.initDone = true →
    (s.pending = { issuer := .consumer, body := .pollIter } :: rest ∧ again = rest ∨
      s.pending = { issuer := .consumer, body := .pollRest } :: rest ∧ again = s.pending ∨
      s.pending = [] ∧ again = []) →
    s.cstate = .polling →
    s.cnt ≠ 0 → s.rd < s.par.qcap → s.qmem.read? s.rd = some b →
    (decFeed s.par s.dec b).2 = some f → decode (.frame f) = .ok i →
    ∃ v, exec i { s with
        pending := again, rd := (s.rd + 1) % s.par.qcap, cnt := s.cnt - 1
        dec := (decFeed s.par s.dec b).1 } = .next v ∧
      step s = .next (v.returning (.iteration .more))

/-- With no further PUSH a POLL has exactly CNT + 1 iterations, whatever the decoder, and what was requested after it comes next. That a POLL goes on where no request is pending is the model's inference (log 12). (44_poll_loop.md R223, R224; 30_encoding.md R93) -/
def Obligations.APollEndsAfterItsPendingBytes : Prop :=
  ∀ (s : State) (rest : List Request), Inv s → s.initDone = true → s.cstate = .polling →
    (s.pending = [] ∧ rest = [] ∨ s.pending = { issuer := .consumer, body := .pollRest } :: rest) →
    (∀ j ≤ s.cnt, ∃ u, Host.Core.run core j s = .next u ∧ u.cstate = .polling ∧ u.cnt + j = s.cnt ∧
      u.pending = s.pending) ∧
    ∃ t, Host.Core.run core (s.cnt + 1) s = .next t ∧ t.cstate = .idle ∧ t.cnt = 0 ∧ t.pending = rest

/-- A POLL with PUSHes between its iterations has exactly k + m + 1 iterations. (44_poll_loop.md R223; 30_encoding.md R93) -/
def Obligations.APollHasAsManyIterationsAsBytesPlusOne : Prop :=
  ∀ (l : List (Option Byte)) (s u : State), Inv s → s.initDone = true → s.cstate = .polling →
    s.pending = scheduleRequests (l ++ [none]) →
    Host.Core.run core l.length s = .next u → u.cstate = .polling →
    let pushes := l.countP Option.isSome
    let drops := u.diag.count .queueOverflow - s.diag.count .queueOverflow
    s.diag.count .queueOverflow ≤ u.diag.count .queueOverflow ∧
    u.cnt + l.countP Option.isNone + drops = s.cnt + pushes ∧
    ∃ t, step u = .next t ∧ (t.cstate = .idle ↔ u.cnt = 0) ∧
      (t.cstate = .idle →
        (l ++ [none]).countP Option.isNone + drops = s.cnt + pushes + 1)

/-- A POLL ends if the producer makes finitely many accepted PUSHes and the consumer is not held up for ever. That the second premise is asked, and that requests arrive in lists, is the model's (log 7 and 23). (44_poll_loop.md R223, R224; 93_implementation_defined.md A11) -/
def Obligations.APollEndsUnderTheFairnessPremise : Prop :=
  ∀ (inputs : Nat → List Request) (states : Nat → State), IsRun inputs states →
    Inv (states 0) → (states 0).initDone = true → (states 0).cstate = .polling →
    ProducerFair inputs states → ConsumerGoesOn inputs states → ∃ k, (states k).cstate = .idle

/-- A POLL does not end while the FIFO is kept from becoming empty, and from every sound state in a POLL a producer can keep it so for ever. That requests arrive in lists is the model's (log 7 and 23). (44_poll_loop.md R223; 92_eei_decisions.md D19; 93_implementation_defined.md A11) -/
def Obligations.APollGoesOnWhileTheFifoIsKeptFromEmptying : Prop :=
  (∀ (inputs : Nat → List Request) (states : Nat → State), IsRun inputs states →
    (states 0).initDone = true → (states 0).cstate = .polling →
    (∀ k, IteratesAt inputs states k → (states k).cnt ≠ 0) → ∀ k, (states k).cstate = .polling) ∧
  (∀ s : State, Inv s → s.initDone = true → s.cstate = .polling → s.pending = [] →
    ∃ (inputs : Nat → List Request) (states : Nat → State), states 0 = s ∧ IsRun inputs states ∧
      (∀ n, ∃ k, n ≤ k ∧ IteratesAt inputs states k) ∧ ∀ k, (states k).cstate = .polling)

/-- The scratch buffer has FBUF_SIZE bytes, and a frame that the attached decoder returns has no more. How the decoders are represented is the model's choice (log 5 and 6). (41_frame_interface.md R131 (c); 00_scope.md R8; 10_state.md R30; 20_memory.md R50; 95_test_vectors.md section 0) -/
def Obligations.TheDecoderReturnsNoFrameLongerThanItsBuffer : Prop :=
  ∀ p : Params, (decInit p).scratch.length = p.fbufSize ∧
    ∀ (d : DecState) (b : Byte),
      (d.scratch.length = p.fbufSize → (decFeed p d b).1.scratch.length = p.fbufSize) ∧
      ∀ f : Frame, (decFeed p d b).2 = some f → f.length ≤ p.fbufSize

/-- A step takes the next request in the order and runs the transaction its word decodes to. That a step with nothing to do changes nothing is the model's inference (log 12). (20_memory.md R59; 30_encoding.md R89; 60_exceptions.md R255) -/
def Obligations.AStepRunsTheDecodedTransaction : Prop :=
  (∀ (s : State) (who : Issuer) (i : Instr) (rest : List Request), Takes s who i rest →
    who = .producer ∨ who = .consumer → mayIssue who i = true →
    step s = exec i { s with pending := rest }) ∧
  (∀ s : State, s.pending = [] → s.inPoll = false → step s = .next s)

/-- A step that takes an ON_FRAME runs the FRAME instruction its payload decodes to. (30_encoding.md R89, R91; 42_dispatcher.md R150) -/
def Obligations.AStepRunsTheDeliveredFrame : Prop :=
  ∀ (s : State) (f : Frame) (i : Instr) (rest : List Request), s.cstate = .idle →
    s.pending = consumerWord 0x400 (some f) :: rest → decode (.frame f) = .ok i →
    step s = exec i { s with pending := rest }

/-- The word placed by withFetchWord is the instruction the very next step runs, on a machine that CFG_INIT_ADDR has set up where it needs one. What a table word stands for, where it is placed and the set-up are the model's choice (log 15 and 21). (30_encoding.md R82, R89, R91; 70_reset_and_hazards.md R281) -/
def Obligations.AFetchedTableWordIsWhatRuns : Prop :=
  ∀ (s : State) (nbits w : Nat) (i : Instr), decodeTableWord nbits w = some i →
    (s.initDone = true → s.cstate = .idle → step (s.withFetchWord nbits w) = exec i s) ∧
    (s.initDone = false → txnOf i = none ∨ txnOf i = some .init →
      step (s.withFetchWord nbits w) = exec i s) ∧
    (∀ x, s.initDone = false → txnOf i = some x → x ≠ .init →
      step (s.withFetchWord nbits w) = exec i (s.initialised s.par.cfgInitAddr))

/-- The meaning of every reserved selector is its refusal. (30_encoding.md R90; 60_exceptions.md R262) -/
def Obligations.ReservedSelectorsAreRefused : Prop :=
  ∀ (opd : Byte) (s : State),
    exec (.portReserved0 opd) s = .refused .reservedSelector ∧
    exec (.portReserved8 opd) s = .refused .reservedSelector ∧
    exec (.portReserved9 opd) s = .refused .reservedSelector ∧
    exec (.portReservedA opd) s = .refused .reservedSelector ∧
    exec (.portReservedB opd) s = .refused .reservedSelector ∧
    exec (.portReservedC opd) s = .refused .reservedSelector ∧
    exec (.portReservedD opd) s = .refused .reservedSelector ∧
    exec (.portReservedE opd) s = .refused .reservedSelector ∧
    exec (.portReservedF opd) s = .refused .reservedSelector

/-- The ports refuse reserved selectors, operands that are not zero, and words of the wrong agent. Which reason is given where several apply is the model's choice (log 11). (30_encoding.md R90; 60_exceptions.md R255, R262) -/
def Obligations.ReservedAndIllFormedWordsAreRefused : Prop :=
  ∀ (s : State) (who : Issuer) (w : PortWord) (payload : Option Frame) (rest : List Request),
    who = .producer ∨ who = .consumer →
    s.pending = { issuer := who, body := .port w payload } :: rest →
    let op := (w.extractLsb' 8 4).toNat
    let opd : Byte := w.extractLsb' 0 8
    let takesNone := op = 2 ∨ op = 3 ∨ op = 4 ∨ op = 7
    (op = 0 ∨ 8 ≤ op → step s = .refused .reservedSelector) ∧
    (takesNone → opd ≠ 0 → step s = .refused .nonzeroOperand) ∧
    (op = 1 → who = .consumer → step s = .refused .wrongContext) ∧
    (takesNone → opd = 0 → who = .producer → step s = .refused .wrongContext) ∧
    (op = 5 ∨ op = 6 → who = .producer → step s = .refused .wrongContext)

/-- A transaction is refused with WRONG_CONTEXT exactly outside its column of the context table. (60_exceptions.md R255, R262; 30_encoding.md R90) -/
def Obligations.TransactionsOutsideTheirContextAreRefused : Prop :=
  (∀ x c, contextAllows x c = true ↔ (x, c) ∈
    [(Txn.push, Context.interrupt), (.poll, .pollIdle), (.pollIter, .pollPolling), (.pop, .pollIdle),
     (.onFrame, .pollIdle), (.init, .pollIdle), (.setAddress, .pollIdle), (.getAddress, .pollIdle)]) ∧
  (∀ (s : State) (who : Issuer) (rest : List Request), s.initDone = true →
    who = .producer ∨ who = .consumer →
    let ctx := if who = .producer then Context.interrupt else s.pollContext
    (∀ i x, Takes s who i rest → txnOf i = some x →
      (step s = .refused .wrongContext ↔ contextAllows x ctx = false)) ∧
    (s.pending = { issuer := who, body := .pollIter } :: rest →
      (step s = .refused .wrongContext ↔ contextAllows .pollIter ctx = false)))

/-- A second producer's request and a handler's are refused. That they are named as issuers, and refused before anything else is looked at, is the model's choice (log 8 and 11). (40_byte_queue.md R114; 42_dispatcher.md R175; 60_exceptions.md R262) -/
def Obligations.ASecondProducerAndAReentrantHandlerAreRefused : Prop :=
  ∀ (s : State) (body : Body) (rest : List Request),
    (s.pending = { issuer := .secondProducer, body := body } :: rest →
      step s = .refused .overlappingProducer) ∧
    (s.pending = { issuer := .handler, body := body } :: rest → step s = .refused .reentrantCall)
end

