-- ==== Sys2Proof/Laws/Memory.lean ====
section
/-! SUPPORT. FIFO storage: a read after a write, and the canonical form. -/

namespace Sys2Proof.Machine

theorem Memory.read?_write_same (m : Memory) (a : Nat) (b : Byte) : (m.write a b).read? a = some b := by
  induction m with
  | nil => simp [Memory.write, Memory.read?]
  | cons c m ih =>
    obtain ⟨k, v⟩ := c
    simp only [Memory.write]
    split_ifs with h₁ h₂
    · simp [Memory.read?]
    · simp [Memory.read?]
    · simp [Memory.read?, h₂, ih]

theorem Memory.read?_write_other (m : Memory) {a a' : Nat} (b : Byte) (h : a' ≠ a) :
    (m.write a b).read? a' = m.read? a' := by
  induction m with
  | nil => simp [Memory.write, Memory.read?, h]
  | cons c m ih =>
    obtain ⟨k, v⟩ := c
    simp only [Memory.write]
    split_ifs with h₁ h₂
    · simp [Memory.read?, h]
    · subst h₂; simp [Memory.read?, h]
    · simp only [Memory.read?, ih]

theorem Memory.above_write {m : Memory} {k a : Nat} (b : Byte) (hm : Memory.above k m = true)
    (h : k < a) : Memory.above k (m.write a b) = true := by
  induction m with
  | nil => simp [Memory.write, Memory.above, h]
  | cons c m ih =>
    obtain ⟨j, v⟩ := c
    simp only [Memory.above, Bool.and_eq_true, decide_eq_true_eq] at hm
    simp only [Memory.write]
    split_ifs with h₁ h₂
    · simp [Memory.above, h, hm.1, hm.2]
    · simp [Memory.above, h, hm.2]
    · simp [Memory.above, hm.1, ih hm.2]

theorem Memory.above_trans {m : Memory} {j k : Nat} (hm : Memory.above k m = true) (h : j < k) :
    Memory.above j m = true := by
  induction m with
  | nil => rfl
  | cons c m ih =>
    obtain ⟨i, v⟩ := c
    simp only [Memory.above, Bool.and_eq_true, decide_eq_true_eq] at hm ⊢
    exact ⟨by omega, ih hm.2⟩

/-- Writing keeps the canonical form. -/
theorem Memory.wf_write {m : Memory} (a : Nat) (b : Byte) (hm : m.wf = true) :
    (m.write a b).wf = true := by
  induction m with
  | nil => rfl
  | cons c m ih =>
    obtain ⟨k, v⟩ := c
    simp only [Memory.wf, Bool.and_eq_true] at hm
    simp only [Memory.write]
    split_ifs with h₁ h₂
    · simp [Memory.wf, Memory.above, h₁, hm.1, hm.2, Memory.above_trans hm.1 h₁]
    · subst h₂; simp [Memory.wf, hm.1, hm.2]
    · simp [Memory.wf, ih hm.2, Memory.above_write b hm.1 (show k < a by omega)]

/-- Writing an existing cell keeps every listed cell existing. -/
theorem Memory.within_write {m : Memory} {n a : Nat} (b : Byte) (hm : m.within n = true) (h : a < n) :
    (m.write a b).within n = true := by
  induction m with
  | nil => simp [Memory.write, Memory.within, h]
  | cons c m ih =>
    obtain ⟨k, v⟩ := c
    simp only [Memory.within, Bool.and_eq_true, decide_eq_true_eq] at hm
    simp only [Memory.write]
    split_ifs with h₁ h₂
    · simp [Memory.within, h, hm.1, hm.2]
    · simp [Memory.within, h, hm.2]
    · simp [Memory.within, hm.1, ih hm.2]

end Sys2Proof.Machine
end

