-- ==== Sys2Proof/Laws/State.lean ====
section
/-! SUPPORT. The field of each update of State, true by rfl. -/

namespace Sys2Proof.Machine

/-! ### `State.returning` -/

@[simp] theorem State.returning_par (s : State) (r : Ret) : (s.returning r).par = s.par := rfl
@[simp] theorem State.returning_devAddr (s : State) (r : Ret) : (s.returning r).devAddr = s.devAddr := rfl
@[simp] theorem State.returning_qmem (s : State) (r : Ret) : (s.returning r).qmem = s.qmem := rfl
@[simp] theorem State.returning_rd (s : State) (r : Ret) : (s.returning r).rd = s.rd := rfl
@[simp] theorem State.returning_wr (s : State) (r : Ret) : (s.returning r).wr = s.wr := rfl
@[simp] theorem State.returning_cnt (s : State) (r : Ret) : (s.returning r).cnt = s.cnt := rfl
@[simp] theorem State.returning_initDone (s : State) (r : Ret) : (s.returning r).initDone = s.initDone := rfl
@[simp] theorem State.returning_dec (s : State) (r : Ret) : (s.returning r).dec = s.dec := rfl
@[simp] theorem State.returning_cstate (s : State) (r : Ret) : (s.returning r).cstate = s.cstate := rfl
@[simp] theorem State.returning_trace (s : State) (r : Ret) : (s.returning r).trace = s.trace := rfl
@[simp] theorem State.returning_diag (s : State) (r : Ret) : (s.returning r).diag = s.diag := rfl
@[simp] theorem State.returning_pending (s : State) (r : Ret) : (s.returning r).pending = s.pending := rfl
@[simp] theorem State.returning_ret (s : State) (r : Ret) : (s.returning r).ret = r := rfl
@[simp] theorem State.returning_freeDraws (s : State) (r : Ret) : (s.returning r).freeDraws = s.freeDraws := rfl

/-! ### `State.note` -/

@[simp] theorem State.note_par (s : State) (k : DiagCode) : (s.note k).par = s.par := rfl
@[simp] theorem State.note_devAddr (s : State) (k : DiagCode) : (s.note k).devAddr = s.devAddr := rfl
@[simp] theorem State.note_qmem (s : State) (k : DiagCode) : (s.note k).qmem = s.qmem := rfl
@[simp] theorem State.note_rd (s : State) (k : DiagCode) : (s.note k).rd = s.rd := rfl
@[simp] theorem State.note_wr (s : State) (k : DiagCode) : (s.note k).wr = s.wr := rfl
@[simp] theorem State.note_cnt (s : State) (k : DiagCode) : (s.note k).cnt = s.cnt := rfl
@[simp] theorem State.note_initDone (s : State) (k : DiagCode) : (s.note k).initDone = s.initDone := rfl
@[simp] theorem State.note_dec (s : State) (k : DiagCode) : (s.note k).dec = s.dec := rfl
@[simp] theorem State.note_cstate (s : State) (k : DiagCode) : (s.note k).cstate = s.cstate := rfl
@[simp] theorem State.note_trace (s : State) (k : DiagCode) : (s.note k).trace = s.trace := rfl
@[simp] theorem State.note_diag (s : State) (k : DiagCode) : (s.note k).diag = s.diag ++ [k] := rfl
@[simp] theorem State.note_pending (s : State) (k : DiagCode) : (s.note k).pending = s.pending := rfl
@[simp] theorem State.note_ret (s : State) (k : DiagCode) : (s.note k).ret = s.ret := rfl
@[simp] theorem State.note_freeDraws (s : State) (k : DiagCode) : (s.note k).freeDraws = s.freeDraws := rfl

/-! ### `State.emit` -/

@[simp] theorem State.emit_par (s : State) (c : Byte) (p : List Byte) : (s.emit c p).par = s.par := rfl
@[simp] theorem State.emit_devAddr (s : State) (c : Byte) (p : List Byte) : (s.emit c p).devAddr = s.devAddr := rfl
@[simp] theorem State.emit_qmem (s : State) (c : Byte) (p : List Byte) : (s.emit c p).qmem = s.qmem := rfl
@[simp] theorem State.emit_rd (s : State) (c : Byte) (p : List Byte) : (s.emit c p).rd = s.rd := rfl
@[simp] theorem State.emit_wr (s : State) (c : Byte) (p : List Byte) : (s.emit c p).wr = s.wr := rfl
@[simp] theorem State.emit_cnt (s : State) (c : Byte) (p : List Byte) : (s.emit c p).cnt = s.cnt := rfl
@[simp] theorem State.emit_initDone (s : State) (c : Byte) (p : List Byte) : (s.emit c p).initDone = s.initDone := rfl
@[simp] theorem State.emit_dec (s : State) (c : Byte) (p : List Byte) : (s.emit c p).dec = s.dec := rfl
@[simp] theorem State.emit_cstate (s : State) (c : Byte) (p : List Byte) : (s.emit c p).cstate = s.cstate := rfl
@[simp] theorem State.emit_trace (s : State) (c : Byte) (p : List Byte) : (s.emit c p).trace = s.trace ++ [{ code := c, params := p }] := rfl
@[simp] theorem State.emit_diag (s : State) (c : Byte) (p : List Byte) : (s.emit c p).diag = s.diag := rfl
@[simp] theorem State.emit_pending (s : State) (c : Byte) (p : List Byte) : (s.emit c p).pending = s.pending := rfl
@[simp] theorem State.emit_ret (s : State) (c : Byte) (p : List Byte) : (s.emit c p).ret = s.ret := rfl
@[simp] theorem State.emit_freeDraws (s : State) (c : Byte) (p : List Byte) : (s.emit c p).freeDraws = s.freeDraws := rfl

/-! ### `State.initialised` -/

@[simp] theorem State.initialised_par (s : State) (a : Byte) : (s.initialised a).par = s.par := rfl
@[simp] theorem State.initialised_devAddr (s : State) (a : Byte) : (s.initialised a).devAddr = a := rfl
@[simp] theorem State.initialised_qmem (s : State) (a : Byte) : (s.initialised a).qmem = [] := rfl
@[simp] theorem State.initialised_rd (s : State) (a : Byte) : (s.initialised a).rd = 0 := rfl
@[simp] theorem State.initialised_wr (s : State) (a : Byte) : (s.initialised a).wr = 0 := rfl
@[simp] theorem State.initialised_cnt (s : State) (a : Byte) : (s.initialised a).cnt = 0 := rfl
@[simp] theorem State.initialised_initDone (s : State) (a : Byte) : (s.initialised a).initDone = true := rfl
@[simp] theorem State.initialised_dec (s : State) (a : Byte) : (s.initialised a).dec = decInit s.par := rfl
@[simp] theorem State.initialised_cstate (s : State) (a : Byte) : (s.initialised a).cstate = .idle := rfl
@[simp] theorem State.initialised_trace (s : State) (a : Byte) : (s.initialised a).trace = s.trace := rfl
@[simp] theorem State.initialised_diag (s : State) (a : Byte) : (s.initialised a).diag = s.diag := rfl
@[simp] theorem State.initialised_pending (s : State) (a : Byte) : (s.initialised a).pending = s.pending := rfl
@[simp] theorem State.initialised_ret (s : State) (a : Byte) : (s.initialised a).ret = s.ret := rfl
@[simp] theorem State.initialised_freeDraws (s : State) (a : Byte) : (s.initialised a).freeDraws = s.freeDraws := rfl

/-! ### `State.setAddrCmd` -/

@[simp] theorem State.setAddrCmd_par (s : State) (p : List Byte) : (s.setAddrCmd p).par = s.par := by
  cases p <;> rfl
@[simp] theorem State.setAddrCmd_qmem (s : State) (p : List Byte) : (s.setAddrCmd p).qmem = s.qmem := by
  cases p <;> rfl
@[simp] theorem State.setAddrCmd_rd (s : State) (p : List Byte) : (s.setAddrCmd p).rd = s.rd := by
  cases p <;> rfl
@[simp] theorem State.setAddrCmd_wr (s : State) (p : List Byte) : (s.setAddrCmd p).wr = s.wr := by
  cases p <;> rfl
@[simp] theorem State.setAddrCmd_cnt (s : State) (p : List Byte) : (s.setAddrCmd p).cnt = s.cnt := by
  cases p <;> rfl
@[simp] theorem State.setAddrCmd_initDone (s : State) (p : List Byte) : (s.setAddrCmd p).initDone = s.initDone := by
  cases p <;> rfl
@[simp] theorem State.setAddrCmd_dec (s : State) (p : List Byte) : (s.setAddrCmd p).dec = s.dec := by
  cases p <;> rfl
@[simp] theorem State.setAddrCmd_cstate (s : State) (p : List Byte) : (s.setAddrCmd p).cstate = s.cstate := by
  cases p <;> rfl
@[simp] theorem State.setAddrCmd_trace (s : State) (p : List Byte) : (s.setAddrCmd p).trace = s.trace := by
  cases p <;> rfl
@[simp] theorem State.setAddrCmd_diag (s : State) (p : List Byte) : (s.setAddrCmd p).diag = s.diag := by
  cases p <;> rfl
@[simp] theorem State.setAddrCmd_pending (s : State) (p : List Byte) : (s.setAddrCmd p).pending = s.pending := by
  cases p <;> rfl
@[simp] theorem State.setAddrCmd_ret (s : State) (p : List Byte) : (s.setAddrCmd p).ret = s.ret := by
  cases p <;> rfl
@[simp] theorem State.setAddrCmd_freeDraws (s : State) (p : List Byte) : (s.setAddrCmd p).freeDraws = s.freeDraws := by
  cases p <;> rfl
@[simp] theorem State.setAddrCmd_nil (s : State) : s.setAddrCmd [] = s := rfl
@[simp] theorem State.setAddrCmd_cons (s : State) (v : Byte) (p : List Byte) :
    s.setAddrCmd (v :: p) = { s with devAddr := v } := rfl

/-! ### `State.arriving` -/

@[simp] theorem State.arriving_par (s : State) (rs : List Request) : (s.arriving rs).par = s.par := rfl
@[simp] theorem State.arriving_devAddr (s : State) (rs : List Request) : (s.arriving rs).devAddr = s.devAddr := rfl
@[simp] theorem State.arriving_qmem (s : State) (rs : List Request) : (s.arriving rs).qmem = s.qmem := rfl
@[simp] theorem State.arriving_rd (s : State) (rs : List Request) : (s.arriving rs).rd = s.rd := rfl
@[simp] theorem State.arriving_wr (s : State) (rs : List Request) : (s.arriving rs).wr = s.wr := rfl
@[simp] theorem State.arriving_cnt (s : State) (rs : List Request) : (s.arriving rs).cnt = s.cnt := rfl
@[simp] theorem State.arriving_initDone (s : State) (rs : List Request) : (s.arriving rs).initDone = s.initDone := rfl
@[simp] theorem State.arriving_dec (s : State) (rs : List Request) : (s.arriving rs).dec = s.dec := rfl
@[simp] theorem State.arriving_cstate (s : State) (rs : List Request) : (s.arriving rs).cstate = s.cstate := rfl
@[simp] theorem State.arriving_trace (s : State) (rs : List Request) : (s.arriving rs).trace = s.trace := rfl
@[simp] theorem State.arriving_diag (s : State) (rs : List Request) : (s.arriving rs).diag = s.diag := rfl
@[simp] theorem State.arriving_ret (s : State) (rs : List Request) : (s.arriving rs).ret = s.ret := rfl
@[simp] theorem State.arriving_freeDraws (s : State) (rs : List Request) : (s.arriving rs).freeDraws = s.freeDraws := rfl
@[simp] theorem State.arriving_pending (s : State) (rs : List Request) : (s.arriving rs).pending = s.pending ++ rs := rfl
@[simp] theorem State.arriving_nil (s : State) : s.arriving [] = s := by simp [State.arriving]

end Sys2Proof.Machine
end

