-- ==== Sys2Proof/Laws/Fifo.lean ====
section
/-! SUPPORT. Everything PUSH and POP can do on the FIFO state, and the checks. -/

namespace Sys2Proof.Machine

theorem Params.qcap_pos (p : Params) : 0 < p.qcap := Nat.succ_pos _

/-- PUSH's body drops the byte, or writes it at WR. -/
theorem State.pushByte_cases {s t : State} {b : Byte} {acc : Bool} (h : s.pushByte b = .ok (acc, t)) :
    (s.cnt = s.par.qcap ∧ acc = false ∧ t = s.note .queueOverflow) ∨
    (s.cnt ≠ s.par.qcap ∧ s.wr < s.par.qcap ∧ acc = true ∧
      t = { s with qmem := s.qmem.write s.wr b, wr := (s.wr + 1) % s.par.qcap, cnt := s.cnt + 1 }) := by
  unfold State.pushByte State.cellExists at h
  split_ifs at h with h₁ h₂
  · cases h; exact .inl ⟨h₁, rfl, rfl⟩
  · cases h; exact .inr ⟨h₁, by simpa using h₂, rfl, rfl⟩

/-- PUSH's body ends, unless WR lies outside QMEM. -/
theorem State.pushByte_ok {s : State} (b : Byte) (h : s.wr < s.par.qcap) :
    ∃ acc t, s.pushByte b = .ok (acc, t) := by
  unfold State.pushByte State.cellExists
  split_ifs with h₁ h₂
  · exact ⟨_, _, rfl⟩
  · exact ⟨_, _, rfl⟩
  · simp_all

/-- A read of a cell changes nothing but the counter of free values, and that only where the cell has no
byte. -/
theorem State.readCell_cases (s : State) (i : Nat) :
    (∃ b, s.qmem.read? i = some b ∧ s.readCell i = (b, s)) ∨
    (s.qmem.read? i = none ∧
      s.readCell i = (Config.freeByte s.freeDraws, { s with freeDraws := s.freeDraws + 1 })) := by
  unfold State.readCell
  cases h : s.qmem.read? i with
  | none => exact .inr ⟨rfl, rfl⟩
  | some b => exact .inl ⟨b, rfl, rfl⟩

/-- POP's body finds the FIFO empty, or removes the byte at RD: a written one, or a free value. -/
theorem State.popByte_cases {s t : State} {r : Option Byte} (h : s.popByte = .ok (r, t)) :
    (s.cnt = 0 ∧ r = none ∧ t = s) ∨
    (s.cnt ≠ 0 ∧ s.rd < s.par.qcap ∧ ∃ b, r = some b ∧
      (s.qmem.read? s.rd = some b ∧ t = { s with rd := (s.rd + 1) % s.par.qcap, cnt := s.cnt - 1 } ∨
       s.qmem.read? s.rd = none ∧ b = Config.freeByte s.freeDraws ∧
         t = { s with rd := (s.rd + 1) % s.par.qcap, cnt := s.cnt - 1, freeDraws := s.freeDraws + 1 })) := by
  unfold State.popByte State.cellExists at h
  split_ifs at h with h₁ h₂
  · cases h; exact .inl ⟨h₁, rfl, rfl⟩
  · refine .inr ⟨h₁, by simpa using h₂, ?_⟩
    rcases State.readCell_cases s s.rd with ⟨b, hb, hr⟩ | ⟨hn, hr⟩
    · rw [hr] at h; cases h; exact ⟨b, rfl, .inl ⟨hb, rfl⟩⟩
    · rw [hr] at h; cases h; exact ⟨_, rfl, .inr ⟨hn, rfl, rfl⟩⟩

/-- POP's body ends, unless RD lies outside QMEM. -/
theorem State.popByte_ok {s : State} (h : s.rd < s.par.qcap) : ∃ r t, s.popByte = .ok (r, t) := by
  unfold State.popByte State.cellExists
  split_ifs with h₁ h₂
  · exact ⟨_, _, rfl⟩
  · exact ⟨_, _, rfl⟩
  · simp_all

theorem State.afterInit_next {s t : State} {k : Out} :
    s.afterInit k = .next t ↔ s.initDone = true ∧ k = .next t := by
  unfold State.afterInit; split_ifs with h <;> simp [h]

theorem whenAllowed_next {ok : Bool} {k : Out} {t : State} :
    whenAllowed ok k = .next t ↔ ok = true ∧ k = .next t := by
  cases ok <;> simp [whenAllowed]

theorem finish_next {α : Type} {r : Except Fault α} {k : α → State} {t : State} :
    finish r k = .next t ↔ ∃ a, r = .ok a ∧ t = k a := by
  cases r <;> simp [finish, eq_comm]

theorem contextAllows_idle {s : State} {t : Txn} (ht : contextAllows t .pollIdle = true)
    (hp : contextAllows t .pollPolling = false) :
    contextAllows t s.pollContext = true ↔ s.cstate = .idle := by
  cases h : s.cstate <;> simp [State.pollContext, h, ht, hp]

theorem contextAllows_pollIter {s : State} :
    contextAllows .pollIter s.pollContext = true ↔ s.cstate = .polling := by
  cases h : s.cstate <;> simp [State.pollContext, h, contextAllows]

theorem State.consumerMay_idle_next {s t : State} {x : Txn} {k : Out}
    (hx : contextAllows x .pollIdle = true) (hp : contextAllows x .pollPolling = false) :
    s.consumerMay x k = .next t ↔ s.initDone = true ∧ s.cstate = .idle ∧ k = .next t := by
  simp only [State.consumerMay, State.afterInit_next, whenAllowed_next, contextAllows_idle hx hp]

theorem State.consumerMay_pollIter_next {s t : State} {k : Out} :
    s.consumerMay .pollIter k = .next t ↔
      s.initDone = true ∧ s.cstate = .polling ∧ k = .next t := by
  simp only [State.consumerMay, State.afterInit_next, whenAllowed_next, contextAllows_pollIter]

end Sys2Proof.Machine
end

