-- ==== Sys2Proof/Laws/Dispatcher.lean ====
section
/-! SUPPORT. Everything the dispatcher and FEED can do. -/

namespace Sys2Proof.Machine

/-- What an ON_FRAME leaves: DEV_ADDR and TRACE written only by a handler call, one outcome code that is no
overflow, and everything else as it was (42_dispatcher.md R156 to R158). -/
def Dispatched (s t : State) : Prop :=
  ∃ a tr k, t = { s with devAddr := a, trace := s.trace ++ tr, diag := s.diag ++ [k] } ∧
    k ≠ .queueOverflow ∧ (k ≠ .dispatched → a = s.devAddr ∧ tr = [])

theorem dispatched_note (s : State) {k : DiagCode} (hk : k ≠ .queueOverflow) :
    Dispatched s (s.note k) :=
  ⟨s.devAddr, [], k, by simp [State.note], hk, fun _ => ⟨rfl, rfl⟩⟩

theorem dispatched_emit (s : State) (c : Byte) (p : List Byte) :
    Dispatched s ((s.emit c p).note .dispatched) :=
  ⟨s.devAddr, [⟨c, p⟩], .dispatched, rfl, by decide, fun h => absurd rfl h⟩

theorem dispatched_setDeviceAddress (p : List Byte) (s : State) :
    Dispatched s (cmdSetDeviceAddress p s) := by
  cases p with
  | nil => exact dispatched_emit s _ _
  | cons v p => exact ⟨v, [⟨0xA0#8, v :: p⟩], .dispatched, rfl, by decide, fun h => absurd rfl h⟩

/-- Every handler's effect. -/
theorem callHandler_dispatched (h : Handler) (p : List Byte) (s : State) :
    Dispatched s (callHandler h p s) := by
  cases h
  case setDeviceAddress => exact dispatched_setDeviceAddress p s
  all_goals exact dispatched_emit s _ _

theorem runEntry_dispatched (e : Entry) (p : List Byte) (s : State) :
    Dispatched s (runEntry e p s) := by
  cases e with
  | handler h => exact callHandler_dispatched h p s
  | noHandler => exact dispatched_note s (by decide)
  | absent => exact dispatched_note s (by decide)

/-- The checks before the effect. -/
theorem frameThen_cases (addr n : Byte) (rest : Frame) (e : List Byte → State → State) (s : State) :
    (matchAddr s.devAddr addr = false ∧ frameThen addr n rest e s = s.note .foreignAddress) ∨
    (matchAddr s.devAddr addr = true ∧ rest.length < zext n ∧
      frameThen addr n rest e s = s.note .lengthMismatch) ∨
    (matchAddr s.devAddr addr = true ∧ zext n ≤ rest.length ∧
      frameThen addr n rest e s = e (rest.take (zext n)) s) := by
  unfold frameThen declaresTooMany paramsOf
  cases hm : matchAddr s.devAddr addr
  · exact .inl ⟨rfl, by simp⟩
  · by_cases hn : rest.length < zext n
    · exact .inr (.inl ⟨rfl, hn, by simp [hn]⟩)
    · exact .inr (.inr ⟨rfl, by omega, by simp [hn]⟩)

theorem frameThen_dispatched (addr n : Byte) (rest : Frame) {e : List Byte → State → State} (s : State)
    (he : ∀ p, Dispatched s (e p s)) : Dispatched s (frameThen addr n rest e s) := by
  rcases frameThen_cases addr n rest e s with ⟨-, h⟩ | ⟨-, -, h⟩ | ⟨-, -, h⟩ <;> rw [h]
  · exact dispatched_note s (by decide)
  · exact dispatched_note s (by decide)
  · exact he _

/-- ON_FRAME, whatever it is given. -/
theorem State.onFrame_dispatched (s : State) (fo : Option Frame) : Dispatched s (s.onFrame fo) := by
  unfold State.onFrame
  split
  · exact frameThen_dispatched _ _ _ s fun p => runEntry_dispatched _ p s
  · exact dispatched_note s (by decide)

/-- What a FEED leaves: DEC the decoder's next state, and what the dispatcher writes if a frame is complete. -/
theorem State.feed_cases (s : State) (b : Byte) :
    ((decFeed s.par s.dec b).2 = none ∧
      s.feed b = { s with dec := (decFeed s.par s.dec b).1 }) ∨
    (∃ f, (decFeed s.par s.dec b).2 = some f ∧
      s.feed b = { s with dec := (decFeed s.par s.dec b).1 }.onFrame (some f)) := by
  unfold State.feed
  cases h : (decFeed s.par s.dec b).2 with
  | none => exact .inl ⟨rfl, by simp [h]⟩
  | some f => exact .inr ⟨f, rfl, by simp [h]⟩

/-- A FEED writes DEC, DEV_ADDR, TRACE and DIAG, and nothing else; TRACE and DIAG only grow, and by no
overflow. -/
theorem State.feed_frame (s : State) (b : Byte) :
    ∃ a tr ks, s.feed b = { s with
        dec := (decFeed s.par s.dec b).1, devAddr := a, trace := s.trace ++ tr, diag := s.diag ++ ks } ∧
      DiagCode.queueOverflow ∉ ks := by
  rcases State.feed_cases s b with ⟨-, h⟩ | ⟨f, -, h⟩
  · exact ⟨s.devAddr, [], [], by simp [h], by simp⟩
  · obtain ⟨a, tr, k, h', hk, -⟩ :=
      State.onFrame_dispatched { s with dec := (decFeed s.par s.dec b).1 } (some f)
    exact ⟨a, tr, [k], by rw [h, h'], by simpa [eq_comm] using hk⟩

end Sys2Proof.Machine
end

