-- ==== Sys2Proof/Laws/PerInstr.lean ====
section
/-! SUPPORT. The family TableRow: the words of each instruction match exactly one row of
spec/opcode_table.json, and it is the row of that instruction (30_encoding.md R82, R86, R89). -/

namespace Sys2Proof.Laws

/-- A mask over `H[15:8]` reads the command code and nothing else. -/
theorem headerPattern_and (addr cmd n : Byte) {k : Nat} (hk : k < 256) :
    (headerPattern addr cmd n).toNat &&& (k <<< 8) = (zext cmd &&& k) <<< 8 := by
  apply Nat.eq_of_testBit_eq
  intro i
  simp only [headerPattern, BitVec.toNat_append, Nat.testBit_and, Nat.testBit_shiftLeft, Nat.testBit_or]
  by_cases h₁ : 8 ≤ i
  · by_cases h₂ : i < 16
    · have : n.toNat.testBit i = false :=
        Nat.testBit_lt_two_pow (lt_of_lt_of_le n.isLt (Nat.pow_le_pow_right (by omega) h₁))
      have h₃ : ¬ (i - 8 ≥ 8) := by omega
      simp [h₁, h₃, this]
    · have : k.testBit (i - 8) = false :=
        Nat.testBit_lt_two_pow (lt_of_lt_of_le hk (show 2 ^ 8 ≤ 2 ^ (i - 8) from Nat.pow_le_pow_right (by omega) (by omega)))
      simp [this]
  · simp [h₁]

/-- The rows of the table that a command code matches. -/
def rowsOfCode (cmd : Byte) : List String :=
  (frameRows.filter fun r => zext cmd &&& (r.mask >>> 8) == r.pattern >>> 8).map (·.mnemonic)

theorem frameRows_shape :
    ∀ r ∈ frameRows, r.mask = (r.mask >>> 8) <<< 8 ∧ r.mask >>> 8 < 256 ∧ r.pattern = (r.pattern >>> 8) <<< 8 := by
  decide

/-- Which FRAME rows a header matches is decided by its command code. -/
theorem frameRows_matching (addr cmd n : Byte) :
    (frameRows.filter (·.matches (headerPattern addr cmd n).toNat)).map (·.mnemonic) = rowsOfCode cmd := by
  unfold rowsOfCode
  congr 1
  apply List.filter_congr
  intro r hr
  obtain ⟨hm, hk, hp⟩ := frameRows_shape r hr
  unfold OpcodeRow.matches
  rw [hm, headerPattern_and addr cmd n hk]
  simp only [Nat.shiftLeft_shiftRight, beq_eq_beq]
  rw [hp, Nat.shiftLeft_shiftRight]
  exact ⟨fun h => by simpa [Nat.shiftLeft_eq] using h, fun h => by rw [h]⟩

namespace TableRow

/-- The rows of the table that an instruction's words match. -/
def matching : Words → List String
  | .frame (addr :: cmd :: n :: _) =>
    (frameRows.filter (·.matches (headerPattern addr cmd n).toNat)).map (·.mnemonic)
  | .frame _ => []
  | .port w _ => (portRows.filter (·.matches w.toNat)).map (·.mnemonic)

/-- The instruction's words match its own row of the table, and no other. -/
def Statement (i : Instr) : Prop := matching (encode i) = [mnemonicOf i]

theorem reservedInvalid00 (addr : Byte) (n : Byte) (rest : Frame) :
    Statement (.reservedInvalid00 addr n rest) :=
  (frameRows_matching _ _ _).trans (by decide : rowsOfCode 0x00#8 = ["RESERVED_INVALID_0x00"])

theorem setBlinkMask (addr : Byte) (n : Byte) (rest : Frame) :
    Statement (.setBlinkMask addr n rest) :=
  (frameRows_matching _ _ _).trans (by decide : rowsOfCode 0x01#8 = ["SET_BLINK_MASK"])

theorem setBlinkSpeed (addr : Byte) (n : Byte) (rest : Frame) :
    Statement (.setBlinkSpeed addr n rest) :=
  (frameRows_matching _ _ _).trans (by decide : rowsOfCode 0x02#8 = ["SET_BLINK_SPEED"])

theorem setContrastA (addr : Byte) (n : Byte) (rest : Frame) :
    Statement (.setContrastA addr n rest) :=
  (frameRows_matching _ _ _).trans (by decide : rowsOfCode 0x03#8 = ["SET_CONTRAST_A"])

theorem setContrastB (addr : Byte) (n : Byte) (rest : Frame) :
    Statement (.setContrastB addr n rest) :=
  (frameRows_matching _ _ _).trans (by decide : rowsOfCode 0x04#8 = ["SET_CONTRAST_B"])

theorem printString (addr : Byte) (n : Byte) (rest : Frame) :
    Statement (.printString addr n rest) :=
  (frameRows_matching _ _ _).trans (by decide : rowsOfCode 0x05#8 = ["PRINT_STRING"])

theorem setScrollSpeed (addr : Byte) (n : Byte) (rest : Frame) :
    Statement (.setScrollSpeed addr n rest) :=
  (frameRows_matching _ _ _).trans (by decide : rowsOfCode 0x06#8 = ["SET_SCROLL_SPEED"])

theorem saveSettings (addr : Byte) (n : Byte) (rest : Frame) :
    Statement (.saveSettings addr n rest) :=
  (frameRows_matching _ _ _).trans (by decide : rowsOfCode 0x07#8 = ["SAVE_SETTINGS"])

theorem addTempFont (addr : Byte) (n : Byte) (rest : Frame) :
    Statement (.addTempFont addr n rest) :=
  (frameRows_matching _ _ _).trans (by decide : rowsOfCode 0x08#8 = ["ADD_TEMP_FONT"])

theorem setHighlight (addr : Byte) (n : Byte) (rest : Frame) :
    Statement (.setHighlight addr n rest) :=
  (frameRows_matching _ _ _).trans (by decide : rowsOfCode 0x09#8 = ["SET_HIGHLIGHT"])

theorem setContrastTable (addr : Byte) (n : Byte) (rest : Frame) :
    Statement (.setContrastTable addr n rest) :=
  (frameRows_matching _ _ _).trans (by decide : rowsOfCode 0x0A#8 = ["SET_CONTRAST_TABLE"])

theorem unassigned0B (addr : Byte) (n : Byte) (rest : Frame) :
    Statement (.unassigned0B addr n rest) :=
  (frameRows_matching _ _ _).trans (by decide : rowsOfCode 0x0B#8 = ["UNASSIGNED_0x0B"])

theorem unassigned0C0F (addr : Byte) (x : BitVec 2) (n : Byte) (rest : Frame) :
    Statement (.unassigned0C0F addr x n rest) :=
  (frameRows_matching _ _ _).trans ((by decide : ∀ x : BitVec 2, rowsOfCode (0b000011#6 ++ x) = ["UNASSIGNED_0x0C-0x0F"]) x)

theorem unassigned101F (addr : Byte) (x : BitVec 4) (n : Byte) (rest : Frame) :
    Statement (.unassigned101F addr x n rest) :=
  (frameRows_matching _ _ _).trans ((by decide : ∀ x : BitVec 4, rowsOfCode (0b0001#4 ++ x) = ["UNASSIGNED_0x10-0x1F"]) x)

theorem unassigned203F (addr : Byte) (x : BitVec 5) (n : Byte) (rest : Frame) :
    Statement (.unassigned203F addr x n rest) :=
  (frameRows_matching _ _ _).trans ((by decide : ∀ x : BitVec 5, rowsOfCode (0b001#3 ++ x) = ["UNASSIGNED_0x20-0x3F"]) x)

theorem unassigned407F (addr : Byte) (x : BitVec 6) (n : Byte) (rest : Frame) :
    Statement (.unassigned407F addr x n rest) :=
  (frameRows_matching _ _ _).trans ((by decide : ∀ x : BitVec 6, rowsOfCode (0b01#2 ++ x) = ["UNASSIGNED_0x40-0x7F"]) x)

theorem unassigned809F (addr : Byte) (x : BitVec 5) (n : Byte) (rest : Frame) :
    Statement (.unassigned809F addr x n rest) :=
  (frameRows_matching _ _ _).trans ((by decide : ∀ x : BitVec 5, rowsOfCode (0b100#3 ++ x) = ["UNASSIGNED_0x80-0x9F"]) x)

theorem setDeviceAddress (addr : Byte) (n : Byte) (rest : Frame) :
    Statement (.setDeviceAddress addr n rest) :=
  (frameRows_matching _ _ _).trans (by decide : rowsOfCode 0xA0#8 = ["SET_DEVICE_ADDRESS"])

theorem unassignedA1 (addr : Byte) (n : Byte) (rest : Frame) :
    Statement (.unassignedA1 addr n rest) :=
  (frameRows_matching _ _ _).trans (by decide : rowsOfCode 0xA1#8 = ["UNASSIGNED_0xA1"])

theorem unassignedA2A3 (addr : Byte) (x : BitVec 1) (n : Byte) (rest : Frame) :
    Statement (.unassignedA2A3 addr x n rest) :=
  (frameRows_matching _ _ _).trans ((by decide : ∀ x : BitVec 1, rowsOfCode (0b1010001#7 ++ x) = ["UNASSIGNED_0xA2-0xA3"]) x)

theorem unassignedA4A7 (addr : Byte) (x : BitVec 2) (n : Byte) (rest : Frame) :
    Statement (.unassignedA4A7 addr x n rest) :=
  (frameRows_matching _ _ _).trans ((by decide : ∀ x : BitVec 2, rowsOfCode (0b101001#6 ++ x) = ["UNASSIGNED_0xA4-0xA7"]) x)

theorem unassignedA8AF (addr : Byte) (x : BitVec 3) (n : Byte) (rest : Frame) :
    Statement (.unassignedA8AF addr x n rest) :=
  (frameRows_matching _ _ _).trans ((by decide : ∀ x : BitVec 3, rowsOfCode (0b10101#5 ++ x) = ["UNASSIGNED_0xA8-0xAF"]) x)

theorem unassignedB0BF (addr : Byte) (x : BitVec 4) (n : Byte) (rest : Frame) :
    Statement (.unassignedB0BF addr x n rest) :=
  (frameRows_matching _ _ _).trans ((by decide : ∀ x : BitVec 4, rowsOfCode (0b1011#4 ++ x) = ["UNASSIGNED_0xB0-0xBF"]) x)

theorem unassignedC0DF (addr : Byte) (x : BitVec 5) (n : Byte) (rest : Frame) :
    Statement (.unassignedC0DF addr x n rest) :=
  (frameRows_matching _ _ _).trans ((by decide : ∀ x : BitVec 5, rowsOfCode (0b110#3 ++ x) = ["UNASSIGNED_0xC0-0xDF"]) x)

theorem unassignedE0EF (addr : Byte) (x : BitVec 4) (n : Byte) (rest : Frame) :
    Statement (.unassignedE0EF addr x n rest) :=
  (frameRows_matching _ _ _).trans ((by decide : ∀ x : BitVec 4, rowsOfCode (0b1110#4 ++ x) = ["UNASSIGNED_0xE0-0xEF"]) x)

theorem unassignedF0F7 (addr : Byte) (x : BitVec 3) (n : Byte) (rest : Frame) :
    Statement (.unassignedF0F7 addr x n rest) :=
  (frameRows_matching _ _ _).trans ((by decide : ∀ x : BitVec 3, rowsOfCode (0b11110#5 ++ x) = ["UNASSIGNED_0xF0-0xF7"]) x)

theorem unassignedF8FB (addr : Byte) (x : BitVec 2) (n : Byte) (rest : Frame) :
    Statement (.unassignedF8FB addr x n rest) :=
  (frameRows_matching _ _ _).trans ((by decide : ∀ x : BitVec 2, rowsOfCode (0b111110#6 ++ x) = ["UNASSIGNED_0xF8-0xFB"]) x)

theorem unassignedFCFD (addr : Byte) (x : BitVec 1) (n : Byte) (rest : Frame) :
    Statement (.unassignedFCFD addr x n rest) :=
  (frameRows_matching _ _ _).trans ((by decide : ∀ x : BitVec 1, rowsOfCode (0b1111110#7 ++ x) = ["UNASSIGNED_0xFC-0xFD"]) x)

theorem hello (addr : Byte) (n : Byte) (rest : Frame) :
    Statement (.hello addr n rest) :=
  (frameRows_matching _ _ _).trans (by decide : rowsOfCode 0xFE#8 = ["HELLO"])

theorem system (addr : Byte) (n : Byte) (rest : Frame) :
    Statement (.system addr n rest) :=
  (frameRows_matching _ _ _).trans (by decide : rowsOfCode 0xFF#8 = ["SYSTEM"])

theorem push (b : Byte) : Statement (.push b) :=
  (by decide : ∀ v : Byte, (portRows.filter (·.matches (0x1#4 ++ v).toNat)).map (·.mnemonic) = ["PUSH"]) b

theorem pop : Statement .pop := by unfold Statement; decide

theorem poll : Statement .poll := by unfold Statement; decide

theorem onFrame (payload : Option Frame) : Statement (.onFrame payload) := by
  exact (by decide : matching (.port (0x4#4 ++ 0#8) none) = ["ON_FRAME"])

theorem init (a : Byte) : Statement (.init a) :=
  (by decide : ∀ v : Byte, (portRows.filter (·.matches (0x5#4 ++ v).toNat)).map (·.mnemonic) = ["INIT"]) a

theorem setAddress (v : Byte) : Statement (.setAddress v) :=
  (by decide : ∀ v : Byte, (portRows.filter (·.matches (0x6#4 ++ v).toNat)).map (·.mnemonic) = ["SET_ADDRESS"]) v

theorem getAddress : Statement .getAddress := by unfold Statement; decide

theorem portReserved0 (opd : Byte) : Statement (.portReserved0 opd) :=
  (by decide : ∀ v : Byte, (portRows.filter (·.matches (0x0#4 ++ v).toNat)).map (·.mnemonic) = ["PORT_RESERVED_0x0"]) opd

theorem portReserved8 (opd : Byte) : Statement (.portReserved8 opd) :=
  (by decide : ∀ v : Byte, (portRows.filter (·.matches (0x8#4 ++ v).toNat)).map (·.mnemonic) = ["PORT_RESERVED_0x8"]) opd

theorem portReserved9 (opd : Byte) : Statement (.portReserved9 opd) :=
  (by decide : ∀ v : Byte, (portRows.filter (·.matches (0x9#4 ++ v).toNat)).map (·.mnemonic) = ["PORT_RESERVED_0x9"]) opd

theorem portReservedA (opd : Byte) : Statement (.portReservedA opd) :=
  (by decide : ∀ v : Byte, (portRows.filter (·.matches (0xA#4 ++ v).toNat)).map (·.mnemonic) = ["PORT_RESERVED_0xA"]) opd

theorem portReservedB (opd : Byte) : Statement (.portReservedB opd) :=
  (by decide : ∀ v : Byte, (portRows.filter (·.matches (0xB#4 ++ v).toNat)).map (·.mnemonic) = ["PORT_RESERVED_0xB"]) opd

theorem portReservedC (opd : Byte) : Statement (.portReservedC opd) :=
  (by decide : ∀ v : Byte, (portRows.filter (·.matches (0xC#4 ++ v).toNat)).map (·.mnemonic) = ["PORT_RESERVED_0xC"]) opd

theorem portReservedD (opd : Byte) : Statement (.portReservedD opd) :=
  (by decide : ∀ v : Byte, (portRows.filter (·.matches (0xD#4 ++ v).toNat)).map (·.mnemonic) = ["PORT_RESERVED_0xD"]) opd

theorem portReservedE (opd : Byte) : Statement (.portReservedE opd) :=
  (by decide : ∀ v : Byte, (portRows.filter (·.matches (0xE#4 ++ v).toNat)).map (·.mnemonic) = ["PORT_RESERVED_0xE"]) opd

theorem portReservedF (opd : Byte) : Statement (.portReservedF opd) :=
  (by decide : ∀ v : Byte, (portRows.filter (·.matches (0xF#4 ++ v).toNat)).map (·.mnemonic) = ["PORT_RESERVED_0xF"]) opd

end TableRow

end Sys2Proof.Laws
end

