-- ==== Sys2Proof/Laws/Queue.lean ====
section
/-! SUPPORT. PUSH and POP keep the FIFO's invariant, and act on its abstract content `Q` as on a queue
(10_state.md R24 to R28; 20_memory.md R60). -/

namespace Sys2Proof.Machine

/-- PUSH's body keeps the invariant. -/
theorem State.pushByte_keeps {s t : State} {b : Byte} {acc : Bool} (hi : FifoInv s)
    (hm : s.qmem.wf = true) (hw : s.qmem.within s.par.qcap = true) (h : s.pushByte b = .ok (acc, t)) :
    FifoInv t ∧ t.qmem.wf = true ∧ t.qmem.within t.par.qcap = true := by
  rcases State.pushByte_cases h with ⟨-, -, rfl⟩ | ⟨hne, hwr, -, rfl⟩
  · exact ⟨hi, hm, hw⟩
  obtain ⟨hrd, -, hcnt, hpos, hall⟩ := hi
  refine ⟨⟨hrd, Nat.mod_lt _ (Params.qcap_pos _), show s.cnt + 1 ≤ s.par.qcap by omega, ?_, ?_⟩,
    Memory.wf_write _ _ hm, Memory.within_write _ hw hwr⟩
  · show (s.wr + 1) % s.par.qcap = (s.rd + (s.cnt + 1)) % s.par.qcap
    rw [hpos, Nat.mod_add_mod, Nat.add_assoc]
  · intro i hlt
    change i < s.cnt + 1 at hlt
    show ((s.qmem.write s.wr b).read? ((s.rd + i) % s.par.qcap)).isSome = true
    by_cases he : (s.rd + i) % s.par.qcap = s.wr
    · rw [he, Memory.read?_write_same]; rfl
    · rw [Memory.read?_write_other _ _ he]
      rcases Nat.lt_succ_iff_lt_or_eq.1 hlt with hlt | rfl
      · exact hall _ hlt
      · exact absurd hpos.symm he

/-- POP's body keeps the invariant, and writes no storage. -/
theorem State.popByte_keeps {s t : State} {r : Option Byte} (hi : FifoInv s) (h : s.popByte = .ok (r, t)) :
    FifoInv t ∧ t.qmem = s.qmem ∧ t.par = s.par ∧ t.initDone = s.initDone := by
  rcases State.popByte_cases h with ⟨-, -, rfl⟩ | ⟨h1, -, b, -, ⟨-, rfl⟩ | ⟨-, -, rfl⟩⟩
  · exact ⟨hi, rfl, rfl, rfl⟩
  all_goals
    obtain ⟨-, hwr, hcnt, hpos, hall⟩ := hi
    refine ⟨⟨Nat.mod_lt _ (Params.qcap_pos _), hwr, show s.cnt - 1 ≤ s.par.qcap by omega, ?_, ?_⟩,
      rfl, rfl, rfl⟩
    · show s.wr = ((s.rd + 1) % s.par.qcap + (s.cnt - 1)) % s.par.qcap
      rw [hpos, Nat.mod_add_mod]; congr 1; omega
    · intro i hlt
      change i < s.cnt - 1 at hlt
      show (s.qmem.read? (((s.rd + 1) % s.par.qcap + i) % s.par.qcap)).isSome = true
      rw [Nat.mod_add_mod, show s.rd + 1 + i = s.rd + (i + 1) by omega]
      exact hall (i + 1) (by omega)

/-- PUSH's body writes neither DEC nor CSTATE. -/
theorem State.pushByte_consumer {s t : State} {b : Byte} {acc : Bool} (h : s.pushByte b = .ok (acc, t)) :
    t.dec = s.dec ∧ t.cstate = s.cstate ∧ t.par = s.par ∧ t.pending = s.pending := by
  rcases State.pushByte_cases h with ⟨-, -, rfl⟩ | ⟨-, -, -, rfl⟩ <;> exact ⟨rfl, rfl, rfl, rfl⟩

/-- POP's body writes neither DEC nor CSTATE, nor the lists. -/
theorem State.popByte_consumer {s t : State} {r : Option Byte} (h : s.popByte = .ok (r, t)) :
    t.dec = s.dec ∧ t.cstate = s.cstate ∧ t.par = s.par ∧ t.pending = s.pending ∧ t.diag = s.diag := by
  rcases State.popByte_cases h with ⟨-, -, rfl⟩ | ⟨-, -, -, -, ⟨-, rfl⟩ | ⟨-, -, rfl⟩⟩ <;>
    exact ⟨rfl, rfl, rfl, rfl, rfl⟩

/-! ## The content `Q` -/

/-- `Q` is a function of QMEM, QCAP, RD and CNT. -/
theorem State.queue_congr {s t : State} (hm : t.qmem = s.qmem) (hp : t.par = s.par) (hr : t.rd = s.rd)
    (hc : t.cnt = s.cnt) : t.queue = s.queue := by
  unfold State.queue; rw [hm, hp, hr, hc]

/-- `|Q| = CNT` (R28). -/
theorem State.queue_length {s : State} (h : FifoInv s) : s.queue.length = s.cnt := by
  unfold State.queue
  rw [List.length_filterMap_eq_countP, List.countP_eq_length.2, List.length_range]
  intro i hi
  exact h.2.2.2.2 i (List.mem_range.1 hi)

theorem State.queue_of_cnt_zero {s : State} (h : s.cnt = 0) : s.queue = [] := by
  unfold State.queue; rw [h]; rfl

/-- An accepted PUSH appends its byte. -/
theorem State.pushByte_queue {s t : State} {b : Byte} (hi : FifoInv s) (h : s.pushByte b = .ok (true, t)) :
    t.queue = s.queue ++ [b] ∧ s.cnt < s.par.qcap := by
  rcases State.pushByte_cases h with ⟨-, h, -⟩ | ⟨hne, -, -, rfl⟩
  · cases h
  obtain ⟨-, -, hcnt, hpos, -⟩ := hi
  refine ⟨?_, by omega⟩
  unfold State.queue
  rw [List.range_succ, List.filterMap_append]
  congr 1
  · apply List.filterMap_congr
    intro i hi
    rw [List.mem_range] at hi
    apply Memory.read?_write_other
    rw [hpos]
    intro he
    have := Nat.ModEq.add_left_cancel' s.rd
      (show Nat.ModEq s.par.qcap (s.rd + i) (s.rd + s.cnt) from he)
    rw [Nat.ModEq, Nat.mod_eq_of_lt (by omega), Nat.mod_eq_of_lt (by omega)] at this
    omega
  · show List.filterMap (fun i => (s.qmem.write s.wr b).read? ((s.rd + i) % s.par.qcap)) [s.cnt] = [b]
    rw [List.filterMap_cons, ← hpos, Memory.read?_write_same]; rfl

/-- A POP that returns a byte removes the oldest one, and draws no free value. -/
theorem State.popByte_queue {s t : State} {b : Byte} (hi : FifoInv s) (h : s.popByte = .ok (some b, t)) :
    s.queue = b :: t.queue ∧ t.freeDraws = s.freeDraws ∧ s.cnt = t.cnt + 1 := by
  obtain ⟨-, -, -, -, hall⟩ := hi
  rcases State.popByte_cases h with ⟨-, h, -⟩ | ⟨h1, h2, b, hb, ⟨hr, rfl⟩ | ⟨hr, -, rfl⟩⟩
  · cases h
  · cases hb
    refine ⟨?_, rfl, show s.cnt = s.cnt - 1 + 1 by omega⟩
    unfold State.queue
    obtain ⟨k, hk⟩ : ∃ k, s.cnt = k + 1 := ⟨s.cnt - 1, by omega⟩
    rw [hk, List.range_succ_eq_map, List.filterMap_cons]
    simp only [Nat.add_zero, Nat.mod_eq_of_lt h2, hr]
    congr 1
    rw [List.filterMap_map]
    apply List.filterMap_congr
    intro i _
    simp only [Function.comp]
    rw [Nat.mod_add_mod, show s.rd + Nat.succ i = s.rd + 1 + i by omega]
  · have := hall 0 (by omega)
    rw [Nat.add_zero, Nat.mod_eq_of_lt h2, hr] at this
    cases this

/-- A POP that returns nothing found the FIFO empty and changed nothing. -/
theorem State.popByte_none {s t : State} (h : s.popByte = .ok (none, t)) : s.cnt = 0 ∧ t = s := by
  rcases State.popByte_cases h with ⟨h, -, rfl⟩ | ⟨-, -, b, hb, -⟩
  · exact ⟨h, rfl⟩
  · cases hb

end Sys2Proof.Machine
end

