-- ==== Sys2Proof/Laws/Step.lean ====
section
/-! SUPPORT. Each port transaction's next states, and everything a step can do. -/

namespace Sys2Proof.Machine

/-! ## The port transactions -/

theorem execPush_next {b : Byte} {s t : State} :
    execPush b s = .next t ↔
      s.initDone = true ∧ ∃ acc u, s.pushByte b = .ok (acc, u) ∧ t = u.returning (.accepted acc) := by
  simp only [execPush, State.afterInit_next, finish_next, Prod.exists]

theorem execPop_next {s t : State} :
    execPop s = .next t ↔
      s.initDone = true ∧ s.cstate = .idle ∧
        ∃ r u, s.popByte = .ok (r, u) ∧ t = u.returning (.popped r) := by
  simp only [execPop, State.consumerMay_idle_next (x := .pop) rfl rfl, finish_next, Prod.exists]

theorem execPoll_next {s t : State} :
    execPoll s = .next t ↔
      s.initDone = true ∧ s.cstate = .idle ∧ t = { s with cstate := .polling }.returning .nothing := by
  simp only [execPoll, State.consumerMay_idle_next (x := .poll) rfl rfl, Host.Outcome.next.injEq, eq_comm]

theorem execOnFrame_next {fo : Option Frame} {s t : State} :
    execOnFrame fo s = .next t ↔
      s.initDone = true ∧ s.cstate = .idle ∧ t = (s.onFrame fo).returning .nothing := by
  simp only [execOnFrame, State.consumerMay_idle_next (x := .onFrame) rfl rfl, Host.Outcome.next.injEq,
    eq_comm]

theorem execInit_next {a : Byte} {s t : State} :
    execInit a s = .next t ↔
      (s.initDone = true → s.cstate = .idle) ∧ t = (s.initialised a).returning .nothing := by
  simp only [execInit, whenAllowed_next, Bool.or_eq_true, Bool.not_eq_true',
    contextAllows_idle (t := .init) rfl rfl, Host.Outcome.next.injEq]
  cases s.initDone <;> simp [eq_comm]

theorem execSetAddress_next {v : Byte} {s t : State} :
    execSetAddress v s = .next t ↔
      s.initDone = true ∧ s.cstate = .idle ∧ t = { s with devAddr := v }.returning .nothing := by
  simp only [execSetAddress, State.consumerMay_idle_next (x := .setAddress) rfl rfl,
    Host.Outcome.next.injEq, eq_comm]

theorem execGetAddress_next {s t : State} :
    execGetAddress s = .next t ↔
      s.initDone = true ∧ s.cstate = .idle ∧ t = s.returning (.address s.devAddr) := by
  simp only [execGetAddress, State.consumerMay_idle_next (x := .getAddress) rfl rfl,
    Host.Outcome.next.injEq, eq_comm]

theorem pollIter_next {s t : State} :
    pollIter s = .next t ↔
      s.initDone = true ∧ s.cstate = .polling ∧ ∃ r u, s.popByte = .ok (r, u) ∧ t = afterPop (r, u) := by
  simp only [pollIter, State.consumerMay_pollIter_next, finish_next, Prod.exists]

/-! ## What a port word can be -/

theorem withZeroOperand_ok {opd : Byte} {i j : Instr} :
    withZeroOperand opd i = .ok j ↔ opd = 0#8 ∧ i = j := by
  unfold withZeroOperand; split_ifs with h <;> simp [h]

/-- The transactions a port word decodes to; the reserved rows answer no next state. -/
theorem exec_port_next {w : PortWord} {payload : Option Frame} {i : Instr} {s t : State}
    (hd : decodePort w payload = .ok i) (h : exec i s = .next t) :
    (∃ b, i = .push b ∧ execPush b s = .next t) ∨
    (i = .pop ∧ execPop s = .next t) ∨
    (i = .poll ∧ execPoll s = .next t) ∨
    (i = .onFrame payload ∧ execOnFrame payload s = .next t) ∨
    (∃ a, i = .init a ∧ execInit a s = .next t) ∨
    (∃ v, i = .setAddress v ∧ execSetAddress v s = .next t) ∨
    (i = .getAddress ∧ execGetAddress s = .next t) := by
  unfold decodePort at hd
  simp only at hd
  split at hd
  all_goals first
    | (rw [withZeroOperand_ok] at hd; obtain ⟨-, rfl⟩ := hd)
    | cases hd
  all_goals first
    | nomatch (show (Host.Outcome.refused Refusal.reservedSelector : Out) = .next t from h)
    | simpa [exec] using h

/-! ## The step -/

theorem serve_next {r : Request} {s t : State} (h : serve r s = .next t) :
    (r.issuer = .producer ∨ r.issuer = .consumer) ∧ serveBody r s = .next t := by
  unfold serve at h
  split at h
  · cases h
  · cases h
  · exact ⟨.inl ‹_›, h⟩
  · exact ⟨.inr ‹_›, h⟩

theorem servePort_next {who : Issuer} {w : PortWord} {payload : Option Frame} {s t : State}
    (h : servePort who w payload s = .next t) :
    ∃ i, decodePort w payload = .ok i ∧ mayIssue who i = true ∧ exec i s = .next t := by
  unfold servePort at h
  split at h
  · cases h
  · rw [whenAllowed_next] at h; exact ⟨_, ‹_›, h⟩

theorem servePollIter_next {who : Issuer} {s t : State} (h : servePollIter who s = .next t) :
    who = .consumer ∧ pollIter s = .next t := by
  unfold servePollIter at h
  rw [whenAllowed_next] at h
  refine ⟨?_, h.2⟩
  cases who <;> first | rfl | exact absurd h.1 (by decide)

theorem servePollRest_next {r : Request} {s t : State} (h : servePollRest r s = .next t) :
    r.issuer = .consumer ∧ ∃ u, pollIter s = .next u ∧ t = u.keepPolling r := by
  unfold servePollRest at h
  split at h
  · cases h
    obtain ⟨h₁, h₂⟩ := servePollIter_next ‹_›
    exact ⟨h₁, _, h₂, rfl⟩
  · cases h
  · cases h

/-- Keeping a POLL's rest pending writes the list of requests alone. -/
theorem State.keepPolling_eq (s : State) (r : Request) :
    s.keepPolling r = { s with pending := (s.keepPolling r).pending } := by
  unfold State.keepPolling; split <;> rfl

/-- A POLL that is not over keeps its rest as the next request. -/
theorem State.keepPolling_polling {s : State} (r : Request) (h : s.cstate = .polling) :
    s.keepPolling r = { s with pending := r :: s.pending } := by
  simp [State.keepPolling, h]

/-- A POLL that is over keeps nothing. -/
theorem State.keepPolling_idle {s : State} (r : Request) (h : s.cstate = .idle) : s.keepPolling r = s := by
  simp [State.keepPolling, h]

/-- Everything a step that answers a next state can have done: nothing, where no request is pending and no
POLL is in progress; one iteration of the POLL in progress; or one port transaction of an agent that may issue
it, on the state with its request taken. -/
theorem step_cases {s t : State} (h : step s = .next t) :
    (s.pending = [] ∧ s.inPoll = false ∧ t = s) ∨
    (Iterates s ∧ s.initDone = true ∧ s.cstate = .polling ∧
      ∃ rest r u, { s with pending := rest }.popByte = .ok (r, u) ∧
        t = { afterPop (r, u) with pending := t.pending }) ∨
    (∃ who w payload i rest,
      s.pending = { issuer := who, body := .port w payload } :: rest ∧ decodePort w payload = .ok i ∧
        (who = .producer ∨ who = .consumer) ∧ mayIssue who i = true ∧
        exec i { s with pending := rest } = .next t) := by
  unfold step at h
  split at h
  · rename_i hp
    unfold idleStep at h
    split_ifs at h with hi
    · obtain ⟨h₁, h₂, r, u, h₃, rfl⟩ := pollIter_next.1 h
      exact .inr (.inl ⟨.inr (.inr ⟨hp, hi⟩), h₁, h₂, [], r, u, by rw [← h₃, ← hp], rfl⟩)
    · cases h; exact .inl ⟨hp, by simpa using hi, rfl⟩
  · rename_i r rest hp
    obtain ⟨who, body⟩ := r
    obtain ⟨hw, hb⟩ := serve_next h
    unfold serveBody at hb
    cases body with
    | port w payload =>
      obtain ⟨i, hd, hm, he⟩ := servePort_next hb
      exact .inr (.inr ⟨who, w, payload, i, rest, hp, hd, hw, hm, he⟩)
    | pollIter =>
      obtain ⟨rfl, hi⟩ := servePollIter_next hb
      obtain ⟨h₁, h₂, r, u, h₃, rfl⟩ := pollIter_next.1 hi
      exact .inr (.inl ⟨.inl ⟨rest, hp⟩, h₁, h₂, rest, r, u, h₃, rfl⟩)
    | pollRest =>
      obtain ⟨hc, v, hi, rfl⟩ := servePollRest_next hb
      cases hc
      obtain ⟨h₁, h₂, r, u, h₃, rfl⟩ := pollIter_next.1 hi
      exact .inr (.inl ⟨.inr (.inl ⟨rest, hp⟩), h₁, h₂, rest, r, u, h₃, State.keepPolling_eq _ _⟩)

/-- A PORT word of the producer that may be issued is a PUSH, or reserved. -/
theorem mayIssue_producer {i : Instr} (h : mayIssue .producer i = true) :
    (∃ b, i = .push b) ∨ txnOf i = none := by
  cases i <;> first | exact .inl ⟨_, rfl⟩ | exact .inr rfl | exact Bool.noConfusion h

/-- A PORT word of the consumer that may be issued is no PUSH. -/
theorem mayIssue_consumer {i : Instr} (h : mayIssue .consumer i = true) : ∀ b, i ≠ .push b := by
  rintro b rfl; exact Bool.noConfusion h

/-- At most one port transaction is next. -/
theorem takes_unique {s : State} {who who' : Issuer} {i i' : Instr} {r r' : List Request}
    (h : Takes s who i r) (h' : Takes s who' i' r') : who = who' ∧ i = i' ∧ r = r' := by
  obtain ⟨w, p, h₁, h₂⟩ := h
  obtain ⟨w', p', h₁', h₂'⟩ := h'
  rw [h₁] at h₁'
  simp only [List.cons.injEq, Request.mk.injEq, Body.port.injEq] at h₁'
  obtain ⟨⟨rfl, rfl, rfl⟩, rfl⟩ := h₁'
  rw [h₂] at h₂'
  cases h₂'
  exact ⟨rfl, rfl, rfl⟩

/-- Where a port transaction is next, no iteration is. -/
theorem takes_not_iterates {s : State} {who : Issuer} {i : Instr} {r : List Request}
    (h : Takes s who i r) : ¬ Iterates s := by
  obtain ⟨w, p, h₁, -⟩ := h
  rintro (⟨r, h⟩ | ⟨r, h⟩ | ⟨h, -⟩) <;> rw [h₁] at h <;> simp at h

/-- What a step did, by the transaction it took: `step_cases` with the issuer and the transaction's next state
resolved. -/
theorem step_next_cases {s t : State} (h : step s = .next t) :
    (s.pending = [] ∧ s.inPoll = false ∧ t = s) ∨
    (Iterates s ∧ s.initDone = true ∧ s.cstate = .polling ∧
      ∃ rest r u, { s with pending := rest }.popByte = .ok (r, u) ∧
        t = { afterPop (r, u) with pending := t.pending }) ∨
    (∃ b rest, Takes s .producer (.push b) rest ∧ s.initDone = true ∧
      ∃ acc u, { s with pending := rest }.pushByte b = .ok (acc, u) ∧ t = u.returning (.accepted acc)) ∨
    (∃ rest, Takes s .consumer .pop rest ∧ s.initDone = true ∧
      ∃ r u, { s with pending := rest }.popByte = .ok (r, u) ∧ t = u.returning (.popped r)) ∨
    (∃ rest, Takes s .consumer .poll rest ∧ s.initDone = true ∧
      t = { s with pending := rest, cstate := .polling, ret := .nothing }) ∨
    (∃ fo rest, Takes s .consumer (.onFrame fo) rest ∧ s.initDone = true ∧
      t = ({ s with pending := rest }.onFrame fo).returning .nothing) ∨
    (∃ a rest, Takes s .consumer (.init a) rest ∧
      t = ({ s with pending := rest }.initialised a).returning .nothing) ∨
    (∃ v rest, Takes s .consumer (.setAddress v) rest ∧ s.initDone = true ∧
      t = { s with pending := rest, devAddr := v, ret := .nothing }) ∨
    (∃ rest, Takes s .consumer .getAddress rest ∧ s.initDone = true ∧
      t = { s with pending := rest, ret := .address s.devAddr }) := by
  rcases step_cases h with h | h | ⟨who, w, payload, i, rest, hpend, hdec, hwho, hmay, he⟩
  · exact .inl h
  · exact .inr (.inl h)
  have hT : Takes s who i rest := ⟨w, payload, hpend, hdec⟩
  have hc : (∃ b, i = .push b) ∨ who = .consumer := by
    rcases hwho with rfl | rfl
    · rcases mayIssue_producer hmay with h | h
      · exact .inl h
      · rcases exec_port_next hdec he with ⟨b, rfl, -⟩ | ⟨rfl, -⟩ | ⟨rfl, -⟩ | ⟨rfl, -⟩ | ⟨a, rfl, -⟩ |
          ⟨v, rfl, -⟩ | ⟨rfl, -⟩ <;> simp [txnOf] at h
    · exact .inr rfl
  rcases exec_port_next hdec he with ⟨b, rfl, hx⟩ | ⟨rfl, hx⟩ | ⟨rfl, hx⟩ | ⟨rfl, hx⟩ | ⟨a, rfl, hx⟩ |
    ⟨v, rfl, hx⟩ | ⟨rfl, hx⟩
  · obtain ⟨hd, acc, u, hp, rfl⟩ := execPush_next.1 hx
    obtain rfl : who = .producer := by
      rcases hwho with rfl | rfl
      · rfl
      · exact absurd rfl (mayIssue_consumer hmay b)
    exact .inr (.inr (.inl ⟨b, rest, hT, hd, acc, u, hp, rfl⟩))
  all_goals
    obtain rfl : who = .consumer := by
      rcases hc with ⟨b, hb⟩ | hb
      · cases hb
      · exact hb
  · obtain ⟨hd, -, r, u, hp, rfl⟩ := execPop_next.1 hx
    exact .inr (.inr (.inr (.inl ⟨rest, hT, hd, r, u, hp, rfl⟩)))
  · obtain ⟨hd, -, rfl⟩ := execPoll_next.1 hx
    exact .inr (.inr (.inr (.inr (.inl ⟨rest, hT, hd, rfl⟩))))
  · obtain ⟨hd, -, rfl⟩ := execOnFrame_next.1 hx
    exact .inr (.inr (.inr (.inr (.inr (.inl ⟨_, rest, hT, hd, rfl⟩)))))
  · obtain ⟨-, rfl⟩ := execInit_next.1 hx
    exact .inr (.inr (.inr (.inr (.inr (.inr (.inl ⟨a, rest, hT, rfl⟩))))))
  · obtain ⟨hd, -, rfl⟩ := execSetAddress_next.1 hx
    exact .inr (.inr (.inr (.inr (.inr (.inr (.inr (.inl ⟨v, rest, hT, hd, rfl⟩)))))))
  · obtain ⟨hd, -, rfl⟩ := execGetAddress_next.1 hx
    exact .inr (.inr (.inr (.inr (.inr (.inr (.inr (.inr ⟨rest, hT, hd, rfl⟩)))))))

/-- Inside a POLL a step is an iteration or a PUSH: every other transaction is refused. -/
theorem step_polling_cases {s t : State} (hd : s.initDone = true) (hc : s.cstate = .polling)
    (h : step s = .next t) :
    (Iterates s ∧ ∃ rest r u, { s with pending := rest }.popByte = .ok (r, u) ∧
      t = { afterPop (r, u) with pending := t.pending }) ∨
    (∃ b rest, Takes s .producer (.push b) rest ∧
      ∃ acc u, { s with pending := rest }.pushByte b = .ok (acc, u) ∧ t = u.returning (.accepted acc)) := by
  have not_idle : s.cstate ≠ .idle := by simp [hc]
  rcases step_cases h with ⟨-, hp, -⟩ | ⟨hi, -, -, hi'⟩ | ⟨who, w, payload, i, rest, hp, hdec, -, -, he⟩
  · simp [State.inPoll, hd, hc] at hp
  · exact .inl ⟨hi, hi'⟩
  · rcases exec_port_next hdec he with ⟨b, rfl, hx⟩ | ⟨rfl, hx⟩ | ⟨rfl, hx⟩ | ⟨rfl, hx⟩ | ⟨a, rfl, hx⟩ |
      ⟨v, rfl, hx⟩ | ⟨rfl, hx⟩
    · rcases step_next_cases h with ⟨h₀, -⟩ | ⟨hi, -⟩ | ⟨b, rest, hT, -, hu⟩ | ⟨rest', hT, -⟩ | ⟨rest', hT, -⟩ |
        ⟨fo, rest', hT, -⟩ | ⟨a, rest', hT, -⟩ | ⟨v, rest', hT, -⟩ | ⟨rest', hT, -⟩
      · rw [h₀] at hp; cases hp
      · exact absurd hi (takes_not_iterates ⟨w, payload, hp, hdec⟩)
      · exact .inr ⟨b, rest, hT, hu⟩
      all_goals cases (takes_unique hT ⟨w, payload, hp, hdec⟩).2.1
    · exact absurd (execPop_next.1 hx).2.1 not_idle
    · exact absurd (execPoll_next.1 hx).2.1 not_idle
    · exact absurd (execOnFrame_next.1 hx).2.1 not_idle
    · exact absurd ((execInit_next.1 hx).1 hd) not_idle
    · exact absurd (execSetAddress_next.1 hx).2.1 not_idle
    · exact absurd (execGetAddress_next.1 hx).2.1 not_idle

/-! ## Runs of the host's core -/

/-- A run whose first step answers a next state goes on from it. -/
theorem core_run_succ (k : Nat) {s u : State} (h : step s = .next u) :
    Host.Core.run core (k + 1) s = Host.Core.run core k u := by
  have h : core.step s = .next u := h
  simp only [Host.Core.run, h]

/-- A run of one step is the step. -/
theorem core_run_one (s : State) : Host.Core.run core 1 s = step s := by
  have h : core.step s = step s := rfl
  simp only [Host.Core.run, h]
  cases step s <;> rfl

end Sys2Proof.Machine
end

