-- ==== Sys2Proof/Tests/Slice0.lean ====
section
/-! SUPPORT. The model's own tests. Expected results come from the vectors and programs of 95_test_vectors.md,
whose names the docstrings give, and from the encodings of 30_encoding.md. The theorems named witness_… show,
for each statement with hypotheses, states and operands that meet them. -/

namespace Sys2Proof.Tests

open Sys2Proof.Machine

/-! ## Helpers -/

/-- The start state of the vectors (95_test_vectors.md section 0), just after `INIT 5`, with QCAP = 4 and TD. -/
def ready : State :=
  { State.reset with
    par := { qcapLess1 := 3, fbufLess3 := 255, cfgInitAddr := 0x05, decoder := .fixtureTD }
    devAddr := 0x05, initDone := true, dec := tdInit }

/-- The same before INIT. -/
def unready : State := { ready with devAddr := 0, initDone := false }

/-- The same inside a POLL. -/
def polling : State := { ready with cstate := .polling }

/-- The FIFO full, as at the start of Q3 and Q10: RD/WR/CNT = 0/0/4. -/
def full : State :=
  { ready with qmem := [(0, 0x05), (1, 0x01), (2, 0x02), (3, 0x03)], cnt := 4 }

/-- TD holding the given bytes. -/
def holding (held : List Byte) : DecState :=
  { scratch := held ++ List.replicate (tdBufSize - held.length) 0, ctl := held.length }

/-- `Q = [0x00]` at cell 0, and TD holding `[05, 07]`: F3's start with its byte in the FIFO. -/
def aboutToDispatch : State :=
  { polling with
    qmem := [(0, 0x00)], wr := 1, cnt := 1, dec := holding [0x05, 0x07] }

theorem ready_scratch : ScratchInv ready := List.length_replicate

theorem aboutToDispatch_scratch : ScratchInv aboutToDispatch := by
  show (holding [0x05, 0x07]).scratch.length = tdBufSize
  simp only [holding, List.length_append, List.length_replicate]
  rfl

/-- The invariant, its part about the scratch buffer shown apart. -/
theorem sound {s : State} (hd : ScratchInv s)
    (h : s.qmem.wf = true ∧ s.qmem.within s.par.qcap = true ∧ (s.initDone = true → FifoInv s)) : Inv s :=
  ⟨h.1, h.2.1, hd, h.2.2⟩

/-- The next state, if there is one. -/
def after (o : Out) : Option State :=
  match o with
  | .next t => some t
  | .fault _ => none
  | .refused _ => none

/-- The reason of a refusal. -/
def refusal (o : Out) : Option Refusal :=
  match o with
  | .next _ => none
  | .fault _ => none
  | .refused r => some r

/-- The state with one request pending. -/
def asked (s : State) (r : Request) : State := { s with pending := [r] }

/-- The consumer's iteration. -/
def iteration : Request := { issuer := .consumer, body := .pollIter }

/-- The rest of a POLL. -/
def restOfPoll : Request := { issuer := .consumer, body := .pollRest }

/-- The decoded instruction, if there is one. -/
def read (ws : Words) : Option Instr :=
  match decode ws with
  | .ok i => some i
  | .error _ => none

/-! ## Well-formedness -/

/-- Two parameter bytes declared, one there (30_encoding.md R81). -/
theorem test_wf_refuses_a_short_frame : WellFormed (.setBlinkMask 0x05 0x02 [0x01]) = false := by decide

/-- No parameter byte declared, one there. -/
theorem test_wf_refuses_a_long_frame : WellFormed (.hello 0x05 0x00 [0x01]) = false := by decide

/-- Selectors 0x0 and 0xF (R90). -/
theorem test_wf_refuses_reserved_words :
    WellFormed (.portReserved0 0x00) = false ∧ WellFormed (.portReservedF 0xFF) = false := by decide

theorem test_wf_accepts : WellFormed (.setBlinkMask 0x05 0x02 [0x01, 0x02]) = true ∧
    WellFormed (.push 0xFF) = true ∧ WellFormed (.onFrame (some [0x05])) = true := by decide

/-! ## Decoding: words written out from 30_encoding.md R82, R86, R89 -/

theorem test_decode_external_commands :
    decode (.frame [0x05, 0b00000001, 0b00000010, 0x01, 0x02]) = .ok (.setBlinkMask 0x05 0x02 [0x01, 0x02]) ∧
    decode (.frame [0x05, 0b00000010, 0x00]) = .ok (.setBlinkSpeed 0x05 0x00 []) ∧
    decode (.frame [0x05, 0b00000011, 0x00]) = .ok (.setContrastA 0x05 0x00 []) ∧
    decode (.frame [0x05, 0b00000100, 0x00]) = .ok (.setContrastB 0x05 0x00 []) ∧
    decode (.frame [0x05, 0b00000101, 0x00]) = .ok (.printString 0x05 0x00 []) ∧
    decode (.frame [0x05, 0b00000110, 0x00]) = .ok (.setScrollSpeed 0x05 0x00 []) ∧
    decode (.frame [0x05, 0b00000111, 0x00]) = .ok (.saveSettings 0x05 0x00 []) ∧
    decode (.frame [0x05, 0b00001000, 0x00]) = .ok (.addTempFont 0x05 0x00 []) ∧
    decode (.frame [0x05, 0b00001001, 0x00]) = .ok (.setHighlight 0x05 0x00 []) ∧
    decode (.frame [0x05, 0b00001010, 0x00]) = .ok (.setContrastTable 0x05 0x00 []) := by decide

theorem test_decode_other_entries :
    decode (.frame [0x05, 0b10100000, 0x01, 0x09]) = .ok (.setDeviceAddress 0x05 0x01 [0x09]) ∧
    decode (.frame [0x05, 0b11111110, 0x00]) = .ok (.hello 0x05 0x00 []) ∧
    decode (.frame [0x05, 0b11111111, 0x00]) = .ok (.system 0x05 0x00 []) := by decide

/-- The first code of each block. -/
theorem test_decode_unassigned_first :
    decode (.frame [0x05, 0x00, 0x00]) = .ok (.reservedInvalid00 0x05 0x00 []) ∧
    decode (.frame [0x05, 0x0B, 0x00]) = .ok (.unassigned0B 0x05 0x00 []) ∧
    decode (.frame [0x05, 0x0C, 0x00]) = .ok (.unassigned0C0F 0x05 0b00 0x00 []) ∧
    decode (.frame [0x05, 0x10, 0x00]) = .ok (.unassigned101F 0x05 0x0 0x00 []) ∧
    decode (.frame [0x05, 0x20, 0x00]) = .ok (.unassigned203F 0x05 0b00000 0x00 []) ∧
    decode (.frame [0x05, 0x40, 0x00]) = .ok (.unassigned407F 0x05 0b000000 0x00 []) ∧
    decode (.frame [0x05, 0x80, 0x00]) = .ok (.unassigned809F 0x05 0b00000 0x00 []) ∧
    decode (.frame [0x05, 0xA1, 0x00]) = .ok (.unassignedA1 0x05 0x00 []) ∧
    decode (.frame [0x05, 0xA2, 0x00]) = .ok (.unassignedA2A3 0x05 0 0x00 []) ∧
    decode (.frame [0x05, 0xA4, 0x00]) = .ok (.unassignedA4A7 0x05 0b00 0x00 []) ∧
    decode (.frame [0x05, 0xA8, 0x00]) = .ok (.unassignedA8AF 0x05 0b000 0x00 []) ∧
    decode (.frame [0x05, 0xB0, 0x00]) = .ok (.unassignedB0BF 0x05 0x0 0x00 []) ∧
    decode (.frame [0x05, 0xC0, 0x00]) = .ok (.unassignedC0DF 0x05 0b00000 0x00 []) ∧
    decode (.frame [0x05, 0xE0, 0x00]) = .ok (.unassignedE0EF 0x05 0x0 0x00 []) ∧
    decode (.frame [0x05, 0xF0, 0x00]) = .ok (.unassignedF0F7 0x05 0b000 0x00 []) ∧
    decode (.frame [0x05, 0xF8, 0x00]) = .ok (.unassignedF8FB 0x05 0b00 0x00 []) ∧
    decode (.frame [0x05, 0xFC, 0x00]) = .ok (.unassignedFCFD 0x05 0 0x00 []) := by decide

/-- The last code of each block of more than one. -/
theorem test_decode_unassigned_last :
    decode (.frame [0x05, 0x0F, 0x00]) = .ok (.unassigned0C0F 0x05 0b11 0x00 []) ∧
    decode (.frame [0x05, 0x1F, 0x00]) = .ok (.unassigned101F 0x05 0xF 0x00 []) ∧
    decode (.frame [0x05, 0x3F, 0x00]) = .ok (.unassigned203F 0x05 0b11111 0x00 []) ∧
    decode (.frame [0x05, 0x7F, 0x00]) = .ok (.unassigned407F 0x05 0b111111 0x00 []) ∧
    decode (.frame [0x05, 0x9F, 0x00]) = .ok (.unassigned809F 0x05 0b11111 0x00 []) ∧
    decode (.frame [0x05, 0xA3, 0x00]) = .ok (.unassignedA2A3 0x05 1 0x00 []) ∧
    decode (.frame [0x05, 0xA7, 0x00]) = .ok (.unassignedA4A7 0x05 0b11 0x00 []) ∧
    decode (.frame [0x05, 0xAF, 0x00]) = .ok (.unassignedA8AF 0x05 0b111 0x00 []) ∧
    decode (.frame [0x05, 0xBF, 0x00]) = .ok (.unassignedB0BF 0x05 0xF 0x00 []) ∧
    decode (.frame [0x05, 0xDF, 0x00]) = .ok (.unassignedC0DF 0x05 0b11111 0x00 []) ∧
    decode (.frame [0x05, 0xEF, 0x00]) = .ok (.unassignedE0EF 0x05 0xF 0x00 []) ∧
    decode (.frame [0x05, 0xF7, 0x00]) = .ok (.unassignedF0F7 0x05 0b111 0x00 []) ∧
    decode (.frame [0x05, 0xFB, 0x00]) = .ok (.unassignedF8FB 0x05 0b11 0x00 []) ∧
    decode (.frame [0x05, 0xFD, 0x00]) = .ok (.unassignedFCFD 0x05 1 0x00 []) := by decide

theorem test_decode_port_words :
    decode (.port 0x105 none) = .ok (.push 0x05) ∧
    decode (.port 0x200 none) = .ok .pop ∧
    decode (.port 0x300 none) = .ok .poll ∧
    decode (.port 0x400 (some [0x09, 0x01])) = .ok (.onFrame (some [0x09, 0x01])) ∧
    decode (.port 0x5FF none) = .ok (.init 0xFF) ∧
    decode (.port 0x609 none) = .ok (.setAddress 0x09) ∧
    decode (.port 0x700 none) = .ok .getAddress := by decide

theorem test_decode_reserved_words :
    decode (.port 0x000 none) = .ok (.portReserved0 0x00) ∧
    decode (.port 0x812 none) = .ok (.portReserved8 0x12) ∧
    decode (.port 0x912 none) = .ok (.portReserved9 0x12) ∧
    decode (.port 0xA12 none) = .ok (.portReservedA 0x12) ∧
    decode (.port 0xB12 none) = .ok (.portReservedB 0x12) ∧
    decode (.port 0xC12 none) = .ok (.portReservedC 0x12) ∧
    decode (.port 0xD12 none) = .ok (.portReservedD 0x12) ∧
    decode (.port 0xE12 none) = .ok (.portReservedE 0x12) ∧
    decode (.port 0xFFF none) = .ok (.portReservedF 0xFF) := by decide

/-- X4, and frames too short to have a header (42_dispatcher.md R151). -/
theorem test_decode_rejects :
    decode (.port 0x201 none) = .error .nonzeroOperand ∧
    decode (.port 0x301 none) = .error .nonzeroOperand ∧
    decode (.port 0x401 none) = .error .nonzeroOperand ∧
    decode (.port 0x7FF none) = .error .nonzeroOperand ∧
    decode (.frame []) = .error .shortFrame ∧
    decode (.frame [0x05, 0x01]) = .error .shortFrame := by decide

/-- Table words: `H` of A2 and of O8, and a port word in two bytes. -/
theorem test_table_words :
    decodeTableWord 24 0x05A001 = some (.setDeviceAddress 0x05 0x01 [0x00]) ∧
    decodeTableWord 24 0x090100 = some (.setBlinkMask 0x09 0x00 []) ∧
    decodeTableWord 16 0x105 = some (.push 0x05) ∧
    decodeTableWord 16 0x201 = none := by decide

/-! ## PUSH and POP (95_test_vectors.md 2.1) -/

/-- Q1. -/
theorem test_push_writes : (after (exec (.push 0x05) ready)).map
    (fun t => (t.qmem, t.rd, t.wr, t.cnt, t.ret)) = some ([(0, 0x05)], 0, 1, 1, .accepted true) := by decide

/-- Q3. -/
theorem test_push_drops_when_full : (after (exec (.push 0x04) full)).map
    (fun t => (t.qmem, t.cnt, t.diag, t.ret)) =
      some (full.qmem, 4, [.queueOverflow], .accepted false) := by decide

/-- Q6's third POP: RD wraps from 3 to 0. -/
theorem test_pop_wraps : (after (exec .pop { full with rd := 3, wr := 3 })).map
    (fun t => (t.rd, t.wr, t.cnt, t.ret)) = some (0, 3, 3, .popped (some 0x03)) := by decide

/-- Q7. -/
theorem test_pop_empty : (after (exec .pop { ready with rd := 1, wr := 1 })).map
    (fun t => (t.rd, t.cnt, t.ret)) = some (1, 0, .popped none) := by decide

/-! ## ON_FRAME (2.3) -/

/-- O5: a short frame's address is never read. -/
theorem test_onFrame_short : (after (exec (.onFrame (some [0x09, 0x01])) ready)).map
    (fun t => (t.trace, t.diag)) = some ([], [.malformedFrame]) := by decide

/-- O14: the trailing byte is ignored. -/
theorem test_onFrame_trailing : (after (exec (.onFrame (some [0x05, 0x01, 0x01, 0xAA, 0xBB])) ready)).map
    (fun t => (t.trace, t.diag)) = some ([⟨0x01, [0xAA]⟩], [.dispatched]) := by decide

/-! ## The commands (O20 to O29, O36, and A2 to A8) -/

theorem test_setBlinkMask : (after (exec (.setBlinkMask 0x05 0x01 [0x5A]) ready)).map
    (fun t => (t.trace, t.diag)) = some ([⟨0x01, [0x5A]⟩], [.dispatched]) := by decide

theorem test_setBlinkSpeed : (after (exec (.setBlinkSpeed 0x05 0x01 [0x5A]) ready)).map
    (fun t => (t.trace, t.diag)) = some ([⟨0x02, [0x5A]⟩], [.dispatched]) := by decide

theorem test_setContrastA : (after (exec (.setContrastA 0x05 0x01 [0x5A]) ready)).map
    (fun t => (t.trace, t.diag)) = some ([⟨0x03, [0x5A]⟩], [.dispatched]) := by decide

theorem test_setContrastB : (after (exec (.setContrastB 0x05 0x01 [0x5A]) ready)).map
    (fun t => (t.trace, t.diag)) = some ([⟨0x04, [0x5A]⟩], [.dispatched]) := by decide

/-- O36: a zero byte is no terminator. -/
theorem test_printString : (after (exec (.printString 0x05 0x03 [0x48, 0x00, 0x49]) ready)).map
    (fun t => (t.trace, t.diag)) = some ([⟨0x05, [0x48, 0x00, 0x49]⟩], [.dispatched]) := by decide

theorem test_setScrollSpeed : (after (exec (.setScrollSpeed 0x05 0x01 [0x5A]) ready)).map
    (fun t => (t.trace, t.diag)) = some ([⟨0x06, [0x5A]⟩], [.dispatched]) := by decide

/-- S2: a broadcast. -/
theorem test_saveSettings : (after (exec (.saveSettings 0x00 0x00 []) ready)).map
    (fun t => (t.trace, t.diag)) = some ([⟨0x07, []⟩], [.dispatched]) := by decide

theorem test_addTempFont : (after (exec (.addTempFont 0x05 0x01 [0x5A]) ready)).map
    (fun t => (t.trace, t.diag)) = some ([⟨0x08, [0x5A]⟩], [.dispatched]) := by decide

theorem test_setHighlight : (after (exec (.setHighlight 0x05 0x01 [0x5A]) ready)).map
    (fun t => (t.trace, t.diag)) = some ([⟨0x09, [0x5A]⟩], [.dispatched]) := by decide

theorem test_setContrastTable : (after (exec (.setContrastTable 0x05 0x01 [0x5A]) ready)).map
    (fun t => (t.trace, t.diag)) = some ([⟨0x0A, [0x5A]⟩], [.dispatched]) := by decide

/-- A4: only the first parameter is written. -/
theorem test_setDeviceAddress : (after (exec (.setDeviceAddress 0x05 0x02 [0x09, 0x0A]) ready)).map
    (fun t => (t.devAddr, t.trace, t.diag)) = some (0x09, [⟨0xA0, [0x09, 0x0A]⟩], [.dispatched]) := by decide

/-- A13: a length mismatch writes nothing. -/
theorem test_setDeviceAddress_mismatch : (after (exec (.setDeviceAddress 0x05 0x02 [0x09]) ready)).map
    (fun t => (t.devAddr, t.trace, t.diag)) = some (0x05, [], [.lengthMismatch]) := by decide

/-- O30. -/
theorem test_hello : (after (exec (.hello 0x05 0x00 []) ready)).map
    (fun t => (t.trace, t.diag)) = some ([], [.reservedNoop]) := by decide

/-- O31. -/
theorem test_system : (after (exec (.system 0x05 0x00 []) ready)).map
    (fun t => (t.trace, t.diag)) = some ([], [.reservedNoop]) := by decide

/-- O15, O16, O17, O18, O19. -/
theorem test_unassigned :
    [Instr.reservedInvalid00 0x05 0x00 [], .unassigned0B 0x05 0x00 [], .unassigned809F 0x05 0x1F 0x00 [],
      .unassignedA1 0x05 0x00 [], .unassignedFCFD 0x05 1 0x00 []].map
      (fun i => (after (exec i ready)).map fun t => (t.trace, t.diag)) =
    List.replicate 5 (some ([], [.unknownCommand])) := by decide

/-- O9: foreign wins over the length and the code. -/
theorem test_foreign_first : (after (exec (.unassigned203F 0x09 0x13 0xC8 []) ready)).map
    (fun t => t.diag) = some [.foreignAddress] := by decide

/-! ## The address register and POLL (2.4, 2.5) -/

/-- A12: DEV_ADDR written, the FIFO and DEC emptied, TRACE and DIAG kept. -/
theorem test_init : (after (exec (.init 0x06)
      { full with dec := holding [0x05], diag := [.dispatched] })).map
    (fun t => (t.devAddr, t.queue, tdHeld t.dec, t.diag)) =
      some (0x06, [], [], [.dispatched]) := by decide

/-- A10. -/
theorem test_setAddress : (after (exec (.setAddress 0x09) ready)).map (·.devAddr) = some 0x09 := by decide

/-- A14. -/
theorem test_getAddress : (after (exec .getAddress ready)).map (fun t => (t.devAddr, t.ret)) =
    some (0x05, .address 0x05) := by decide

theorem test_poll_enters : (after (exec .poll ready)).map (fun t => (t.cstate, t.cnt)) =
    some (.polling, 0) := by decide

/-- PL1's only iteration. -/
theorem test_iteration_of_an_empty_fifo : (after (step polling)).map (fun t => (t.cstate, t.ret)) =
    some (.idle, .iteration .empty) := by decide

/-- F3: the frame and the handler's call in the same step as the POP. -/
theorem test_iteration_dispatches : (after (step aboutToDispatch)).map
    (fun t => (t.queue, tdHeld t.dec, t.trace, t.diag)) =
      some ([], [], [⟨0x07, []⟩], [.dispatched]) := by decide

/-- 30_encoding.md R93, C: POLL: its rest stays the next request after an iteration that found a byte. -/
theorem test_poll_keeps_its_rest : (after (step (asked aboutToDispatch restOfPoll))).map
    (fun t => (t.cstate, t.trace, t.pending)) =
      some (.polling, [⟨0x07, []⟩], [restOfPoll]) := by decide

/-- R93: the rest of a POLL is over at its EMPTY. -/
theorem test_poll_drops_its_rest : (after (step (asked polling restOfPoll))).map
    (fun t => (t.cstate, t.pending)) = some (.idle, []) := by decide

/-! ## Refusals (2.6) -/

/-- X1 and X2. -/
theorem test_refuses_before_init :
    [Instr.push 0x05, .pop, .poll, .onFrame (some [0x00, 0x01, 0x00]), .setAddress 0x01, .getAddress].map
      (fun i => refusal (exec i unready)) = List.replicate 6 (some .notInitialized) := by decide

/-- X3. -/
theorem test_refuses_reserved_selectors :
    [0x000#12, 0x800#12, 0x912#12, 0xA00#12, 0xB00#12, 0xC00#12, 0xD00#12, 0xE00#12, 0xFFF#12].map
      (fun w => refusal (step (asked ready (consumerWord w none)))) =
    List.replicate 9 (some .reservedSelector) := by decide

/-- X5 and X6. -/
theorem test_refuses_inside_a_poll :
    [Instr.poll, .init 0x05, .setAddress 0x09, .getAddress].map (fun i => refusal (exec i polling)) =
      List.replicate 4 (some .wrongContext) := by decide

/-- X7 and X8. -/
theorem test_refuses_wrong_agent :
    refusal (step (asked ready iteration)) = some .wrongContext ∧
    refusal (step (asked ready (consumerWord 0x105 none))) = some .wrongContext ∧
    refusal (step (asked ready (producerWord 0x200))) = some .wrongContext := by decide

/-- X9 and X10. -/
theorem test_refuses_overlap_and_reentry :
    refusal (step (asked ready { issuer := .secondProducer, body := .port 0x105 none })) =
      some .overlappingProducer ∧
    refusal (step (asked ready { issuer := .handler, body := .port 0x601 none })) =
      some .reentrantCall := by decide

/-- X11. -/
theorem test_refuses_duplicate_code :
    constructTable [(0x07, .handler .saveSettings), (0x07, .noHandler)] = .error .duplicateCode := by decide

/-! ## Witnesses: the hypotheses of the statements, met

Each shows the premises of the statement it is named after, clause by clause, at the boundaries of their
ranges. -/

theorem witness_EncodeDecodeGivesTheWordsBack :
    3 ≤ ([0x05, 0x01, 0x00] : Frame).length ∧ ([0x05, 0x01] : Frame).length < 3 ∧
    decodePort 0x1FF none = .ok (.push 0xFF) := by decide

theorem witness_PortWordsMatchTheTable :
    decodePort 0x200 none = .ok .pop ∧ decodePort 0x201 none = .error .nonzeroOperand := by decide

theorem witness_DuplicateCodesAreRefusedAtConstruction :
    (([] : CommandTable).map Prod.fst).Nodup ∧
    (([(0x01, .absent), (0x02, .absent)] : CommandTable).map Prod.fst).Nodup ∧
    ¬ (([(0x01, .absent), (0x01, .noHandler)] : CommandTable).map Prod.fst).Nodup := by decide

theorem witness_StepKeepsTheInvariant :
    ∃ t, Inv (asked full (consumerWord 0x200 none)) ∧
      step (asked full (consumerWord 0x200 none)) = .next t :=
  ⟨_, sound ready_scratch (by decide), rfl⟩

theorem witness_InitDoneIsWrittenByInitAloneAndGuardsEverythingElse :
    (∃ t, exec (.init 0x05) ready = .next t) ∧ unready.initDone = false ∧
    (∃ t, step (asked unready (consumerWord 0x505 none)) = .next t ∧ t.initDone ≠ unready.initDone) ∧
    Takes (asked unready (producerWord 0x105)) .producer (.push 0x05) [] ∧
    txnOf (.push 0x05) = some .push ∧ agentMay .producer .push = true ∧
    Takes (asked unready (consumerWord 0x700 none)) .consumer .getAddress [] ∧
    agentMay .consumer .getAddress = true ∧
    (asked unready iteration).pending = [{ issuer := .consumer, body := .pollIter }] ∧
    (asked unready { iteration with body := .pollRest }).pending =
      [{ issuer := .consumer, body := .pollRest }] :=
  ⟨⟨_, rfl⟩, rfl, ⟨_, rfl, by decide⟩, ⟨_, _, rfl, rfl⟩, rfl, rfl, ⟨_, _, rfl, rfl⟩, rfl, rfl, rfl⟩

theorem witness_InitSetsTheBlockUp :
    (unready.initDone = true → unready.cstate = .idle) ∧ (ready.initDone = true → ready.cstate = .idle) ∧
    polling.initDone = true ∧ polling.cstate = .polling := by decide

/-- The premises of SET_ADDRESS, GET_ADDRESS and POLL. -/
theorem witness_SetAddressWritesTheRegister :
    (ready.initDone = true ∧ ready.cstate = .idle) ∧ unready.initDone = false ∧
    (polling.initDone = true ∧ polling.cstate = .polling) := by decide

theorem witness_GetAddressReturnsTheRegister :
    (ready.initDone = true ∧ ready.cstate = .idle) ∧ unready.initDone = false ∧
    (polling.initDone = true ∧ polling.cstate = .polling) := by decide

theorem witness_PollEntersPolling :
    (ready.initDone = true ∧ ready.cstate = .idle) ∧ unready.initDone = false ∧
    (polling.initDone = true ∧ polling.cstate = .polling) := by decide

theorem witness_AddressWritesTakeEffectAtOnce :
    (∃ t, exec (.init 0x09) ready = .next t) ∧ (∃ t, exec (.setAddress 0x09) ready = .next t) ∧
    ((0x05 : Byte) = ready.devAddr ∧ 1 ≤ zext 0x01 ∧ zext 0x01 ≤ ([] : Frame).length + 1 ∧
      ∃ t, exec (.setDeviceAddress 0x05 0x01 [0x09]) ready = .next t) ∧
    frameOf (.saveSettings 0x05 0x00 []) = some [0x05, 0x07, 0x00] ∧
    ((0x05 : Byte) ≠ 0x09 ∧ (0x05 : Byte) ≠ 0) ∧
    frameOf (.saveSettings 0x09 0x00 []) = some [0x09, 0x07, 0x00] :=
  ⟨⟨_, rfl⟩, ⟨_, rfl⟩, ⟨rfl, by decide, by decide, _, rfl⟩, rfl, by decide, rfl⟩

theorem witness_DeviceAddressHasThreeWriters :
    (∃ t, step (asked ready (consumerWord 0x509 none)) = .next t ∧ t.devAddr ≠ ready.devAddr) ∧
    (∃ t, step (asked ready (consumerWord 0x609 none)) = .next t ∧ t.devAddr ≠ ready.devAddr) ∧
    (∃ t, step (asked ready (consumerWord 0x400 (some [0x05, 0xA0, 0x01, 0x09]))) = .next t ∧
      t.devAddr ≠ ready.devAddr) :=
  ⟨⟨_, rfl, by decide⟩, ⟨_, rfl, by decide⟩, ⟨_, rfl, by decide⟩⟩

theorem witness_FifoAndSequencerHaveTheirWritersOnly :
    (∃ t, step (asked ready (producerWord 0x105)) = .next t ∧ t.wr ≠ ready.wr ∧ t.cnt ≠ ready.cnt ∧
      t.qmem.read? 0 ≠ ready.qmem.read? 0) ∧
    (∃ t, step (asked full (consumerWord 0x200 none)) = .next t ∧ t.rd ≠ full.rd) ∧
    (∃ t, step aboutToDispatch = .next t ∧ t.dec ≠ aboutToDispatch.dec) ∧
    (∃ t, step (asked ready (consumerWord 0x300 none)) = .next t ∧ t.cstate ≠ ready.cstate) :=
  ⟨⟨_, rfl, by decide⟩, ⟨_, rfl, by decide⟩, ⟨_, rfl, fun h => absurd (congrArg DecState.ctl h) (by decide)⟩,
    ⟨_, rfl, by decide⟩⟩

theorem witness_TraceAndDiagOnlyGrow : ∃ t, step aboutToDispatch = .next t ∧ t.trace ≠ [] ∧ t.diag ≠ [] :=
  ⟨_, rfl, by decide⟩

theorem witness_ParametersAreConstant : ∃ t, step aboutToDispatch = .next t ∧ t ≠ aboutToDispatch :=
  ⟨_, rfl, by decide⟩

theorem witness_PushWritesTheByteOrDropsIt :
    (full.initDone = true ∧ full.cnt = full.par.qcap) ∧
    (ready.initDone = true ∧ ready.cnt ≠ ready.par.qcap ∧ ({ ready with wr := 3 } : State).wr < ready.par.qcap) ∧
    unready.initDone = false := by decide

theorem witness_PopTakesTheOldestByte :
    (ready.initDone = true ∧ ready.cstate = .idle ∧ ready.cnt = 0) ∧
    (full.initDone = true ∧ full.cstate = .idle ∧ full.cnt ≠ 0 ∧ full.rd < full.par.qcap ∧
      full.qmem.read? full.rd = some 0x05) ∧
    unready.initDone = false ∧ (polling.initDone = true ∧ polling.cstate = .polling) := by decide

theorem witness_FifoKeepsOrderAndLosesNothing :
    (Inv (asked full (producerWord 0x104)) ∧ full.initDone = true ∧
      (∃ t, step (asked full (producerWord 0x104)) = .next t) ∧
      Takes (asked full (producerWord 0x104)) .producer (.push 0x04) []) ∧
    (Inv (asked full (consumerWord 0x200 none)) ∧
      (∃ t, step (asked full (consumerWord 0x200 none)) = .next t) ∧
      Takes (asked full (consumerWord 0x200 none)) .consumer .pop []) ∧
    (Inv aboutToDispatch ∧ (∃ t, step aboutToDispatch = .next t) ∧ Iterates aboutToDispatch) ∧
    (Inv (asked full (consumerWord 0x505 none)) ∧
      (∃ t, step (asked full (consumerWord 0x505 none)) = .next t) ∧
      Takes (asked full (consumerWord 0x505 none)) .consumer (.init 0x05) []) :=
  ⟨⟨sound ready_scratch (by decide), rfl, ⟨_, rfl⟩, _, _, rfl, rfl⟩,
    ⟨sound ready_scratch (by decide), ⟨_, rfl⟩, _, _, rfl, rfl⟩,
    ⟨sound aboutToDispatch_scratch (by decide), ⟨_, rfl⟩, .inr (.inr ⟨rfl, rfl⟩)⟩,
    ⟨sound ready_scratch (by decide), ⟨_, rfl⟩, _, _, rfl, rfl⟩⟩

/-- The last clause: a step that is none of the four. -/
theorem witness_FifoKeepsOrderAndLosesNothing_other :
    Inv ready ∧ ready.initDone = true ∧ step ready = .next ready ∧ (∀ b rest, ¬ Takes ready .producer (.push b) rest) ∧
    (∀ rest, ¬ Takes ready .consumer .pop rest) ∧ ¬ Iterates ready ∧
    (∀ a rest, ¬ Takes ready .consumer (.init a) rest) := by
  have none_taken : ∀ who i rest, ¬ Takes ready who i rest := fun _ _ _ ⟨_, _, h, _⟩ => nomatch h
  refine ⟨sound ready_scratch (by decide), rfl, rfl, fun _ _ => none_taken _ _ _, fun _ => none_taken _ _ _, ?_,
    fun _ _ => none_taken _ _ _⟩
  rintro (⟨_, h⟩ | ⟨_, h⟩ | ⟨-, h⟩)
  · nomatch h
  · nomatch h
  · exact absurd h (by decide)

/-- Q11: six PUSHes from an empty FIFO of four. -/
theorem witness_CapacityLaw :
    let s := { ready with pending := ([1, 2, 3, 4, 5, 6] : List Byte).map fun b => producerWord (0x1#4 ++ b) }
    Inv s ∧ s.initDone = true ∧ s.cnt = 0 ∧
      s.pending = ([1, 2, 3, 4, 5, 6] : List Byte).map (fun b => producerWord (0x1#4 ++ b)) :=
  ⟨sound ready_scratch (by decide), rfl, rfl, rfl⟩

/-- Q10a to Q10d, and CNT = 1 and CNT = QCAP − 1 between the edges. -/
theorem witness_PushAndPopAtTheSameMoment :
    (Inv full ∧ full.initDone = true ∧ full.cstate = .idle ∧ full.cnt = full.par.qcap) ∧
    (Inv ready ∧ ready.initDone = true ∧ ready.cstate = .idle ∧ ready.cnt = 0) ∧
    (let s := { full with cnt := 1, wr := 1 }
     Inv s ∧ s.initDone = true ∧ s.cstate = .idle ∧ 0 < s.cnt ∧ s.cnt < s.par.qcap) ∧
    (let s := { full with cnt := 3, wr := 3 }
     Inv s ∧ s.initDone = true ∧ s.cstate = .idle ∧ 0 < s.cnt ∧ s.cnt < s.par.qcap) :=
  ⟨⟨sound ready_scratch (by decide), by decide⟩, ⟨sound ready_scratch (by decide), by decide⟩,
    ⟨sound ready_scratch (by decide), by decide⟩, ⟨sound ready_scratch (by decide), by decide⟩⟩

/-- A PUSH inside a POLL, into a full FIFO. -/
theorem witness_PushAlwaysHasAStep :
    let s := asked { full with cstate := .polling } (producerWord (0x1#4 ++ 0x04#8))
    Inv s ∧ s.initDone = true ∧ s.pending = [producerWord (0x1#4 ++ 0x04#8)] :=
  ⟨sound ready_scratch (by decide), by decide⟩

theorem witness_PushTouchesNoStateOfTheConsumer :
    (∃ t, exec (.push 0x04) full = .next t ∧ t.diag ≠ full.diag) ∧
    (∃ t, exec (.push 0x04) ready = .next t ∧ t.diag = ready.diag) :=
  ⟨⟨_, rfl, by decide⟩, ⟨_, rfl, by decide⟩⟩

theorem witness_PushInsideAnIterationMakesNoDifference :
    (ready.cnt ≠ ready.par.qcap ∧ ∃ t, ready.pushByte 0x07 = .ok (true, t)) ∧
    (Inv full ∧ full.initDone = true ∧ ∃ u, full.popByte = .ok (some 0x05, u)) :=
  ⟨⟨by decide, _, rfl⟩, sound ready_scratch (by decide), rfl, _, rfl⟩

/-- O1, O2 and O4. -/
theorem witness_ShortOrAbsentFramesAreDiscarded :
    ready.initDone = true ∧ ready.cstate = .idle ∧ ([] : Frame).length < 3 ∧
      ([0x05, 0x01] : Frame).length < 3 := by decide

theorem witness_ForeignFramesAreDiscarded :
    frameOf (.unassigned203F 0x09 0x13 0xC8 []) = some [0x09, 0x33, 0xC8] ∧ ready.initDone = true ∧
    (0x09 : Byte) ≠ ready.devAddr ∧ (0x09 : Byte) ≠ 0 := by decide

theorem witness_FramesDeclaringTooManyParametersAreDiscarded :
    frameOf (.setBlinkMask 0x05 0x02 [0x01]) = some [0x05, 0x01, 0x02, 0x01] ∧ ready.initDone = true ∧
    (0x05 : Byte) = ready.devAddr ∧ zext 0x02 > ([0x01] : Frame).length := by decide

theorem witness_FramesAlwaysComplete :
    frameOf (.system 0x05 0x00 []) = some [0x05, 0xFF, 0x00] ∧ ready.initDone = true ∧
    unready.initDone = false := by decide

theorem witness_TheTableDispatcherRunsEachCommandsRule :
    frameOf (.system 0x05 0x00 []) = some [0x05, 0xFF, 0x00] ∧ ready.initDone = true ∧
    ready.cstate = .idle := by decide

/-- O6, O7, and a frame that fails one of the conditions. -/
theorem witness_OnFrameCallsAHandlerExactlyWhen :
    ready.initDone = true ∧ ready.cstate = .idle ∧
    ((0x05 : Byte) = ready.devAddr ∧ zext 0x00 ≤ ([] : Frame).length ∧
      cmdTable 0x01 = .handler .setBlinkMask) ∧
    ¬ ∃ (a c n : Byte) (rest : Frame) (h : Handler), (none : Option Frame) = some (a :: c :: n :: rest) ∧
      (a = ready.devAddr ∨ a = 0) ∧ zext n ≤ rest.length ∧ cmdTable c = .handler h :=
  ⟨rfl, rfl, by decide, fun ⟨_, _, _, _, _, h, _⟩ => nomatch h⟩

theorem witness_OnFrameRecordsTheFirstCheckThatFails : ready.initDone = true ∧ ready.cstate = .idle := by
  decide

theorem witness_DiscardsHaveNoOtherEffect :
    (∃ t, exec (.onFrame (some [0x09, 0x01, 0x00])) ready = .next t ∧ t.diag ≠ ready.diag ++ [.dispatched]) ∧
    (∃ t, exec (.onFrame (some [0x05, 0x01, 0x00])) ready = .next t ∧ t.diag = ready.diag ++ [.dispatched]) :=
  ⟨⟨_, rfl, by decide⟩, ⟨_, rfl, by decide⟩⟩

/-- N = L − 3, at N = 0 and N = 1, to the device and broadcast. -/
theorem witness_ExternalCommandsInvokeTheirHandlers :
    ready.initDone = true ∧ (0x05 : Byte) = ready.devAddr ∧ zext 0x00 ≤ ([] : Frame).length ∧
    zext 0x01 ≤ ([0x5A] : Frame).length := by decide

/-- The first clause at any rest; the second at N = 1 with no byte after the first, and at N = 2 with one. -/
theorem witness_SetDeviceAddressWritesItsFirstParameter :
    ready.initDone = true ∧ (0x05 : Byte) = ready.devAddr ∧
    (1 ≤ zext 0x01 ∧ zext 0x01 ≤ ([] : Frame).length + 1) ∧
    (1 ≤ zext 0x02 ∧ zext 0x02 ≤ ([0x0A] : Frame).length + 1) := by decide

theorem witness_HelloAndSystemDoNothing :
    ready.initDone = true ∧ (0x05 : Byte) = ready.devAddr ∧ zext 0x00 ≤ ([] : Frame).length := by decide

theorem witness_CodesWithoutAnEntryDoNothing :
    ready.initDone = true ∧ (0x05 : Byte) = ready.devAddr ∧ zext 0x00 ≤ ([] : Frame).length := by decide

/-- Every clause: an iteration named by the order, the rest of a POLL and one of a POLL that goes on by itself, outside a POLL, on
an empty FIFO, on a byte that completes no frame and on one that does. -/
theorem witness_AnIterationPopsFeedsAndDispatches :
    (ready.initDone = true ∧ (asked ready iteration).pending = [iteration] ∧
      (asked ready restOfPoll).pending = [{ issuer := .consumer, body := .pollRest }] ∧
      ready.cstate = .idle) ∧
    (polling.pending = [] ∧ polling.cstate = .polling ∧ polling.cnt = 0) ∧
    (let s := { aboutToDispatch with dec := tdInit }
     s.cstate = .polling ∧ s.cnt ≠ 0 ∧ s.rd < s.par.qcap ∧ s.qmem.read? s.rd = some 0x00 ∧
      (decFeed s.par s.dec 0x00).2 = none) ∧
    (let s := aboutToDispatch
     s.cstate = .polling ∧ s.cnt ≠ 0 ∧ s.rd < s.par.qcap ∧ s.qmem.read? s.rd = some 0x00 ∧
      (decFeed s.par s.dec 0x00).2 = some [0x05, 0x07, 0x00]) := by decide

/-- F3. -/
theorem witness_AFrameCompletedInAPollRunsItsInstruction :
    let s := asked aboutToDispatch iteration
    s.initDone = true ∧ s.pending = [{ issuer := .consumer, body := .pollIter }] ∧ s.cstate = .polling ∧
      s.cnt ≠ 0 ∧ s.rd < s.par.qcap ∧ s.qmem.read? s.rd = some 0x00 ∧
      (decFeed s.par s.dec 0x00).2 = some [0x05, 0x07, 0x00] ∧
      decode (.frame [0x05, 0x07, 0x00]) = .ok (.saveSettings 0x05 0x00 []) ∧
      (asked aboutToDispatch restOfPoll).pending = [{ issuer := .consumer, body := .pollRest }] ∧
      aboutToDispatch.pending = [] := by decide

theorem witness_APollEndsAfterItsPendingBytes :
    let s := { full with cstate := .polling }
    let s' := asked s restOfPoll
    (Inv s ∧ s.initDone = true ∧ s.cstate = .polling ∧ s.pending = [] ∧ s.cnt = s.par.qcap) ∧
    (Inv s' ∧ s'.initDone = true ∧ s'.cstate = .polling ∧
      s'.pending = [{ issuer := .consumer, body := .pollRest }]) :=
  ⟨⟨sound ready_scratch (by decide), by decide⟩, sound ready_scratch (by decide), by decide⟩

/-- One PUSH and one iteration, and then the last iteration. -/
theorem witness_APollHasAsManyIterationsAsBytesPlusOne :
    let s := { polling with pending := scheduleRequests ([some 0x07, none] ++ [none]) }
    Inv s ∧ s.initDone = true ∧ s.cstate = .polling ∧
      s.pending = scheduleRequests ([some 0x07, none] ++ [none]) ∧
      ∃ u, Host.Core.run core 2 s = .next u ∧ u.cstate = .polling :=
  ⟨sound ready_scratch (by decide), rfl, rfl, rfl, _, rfl, rfl⟩

/-- PL1's POLL, with no request arriving: one iteration, and then nothing. -/
theorem witness_APollEndsUnderTheFairnessPremise :
    let inputs : Nat → List Request := fun _ => []
    let states : Nat → State := fun
      | 0 => polling
      | _ + 1 => ready.returning (.iteration .empty)
    IsRun inputs states ∧ Inv (states 0) ∧ (states 0).initDone = true ∧ (states 0).cstate = .polling ∧
      ProducerFair inputs states ∧ ConsumerGoesOn inputs states := by
  refine ⟨?_, sound ready_scratch (by decide), rfl, rfl, ⟨1, ?_⟩, fun n => ⟨n + 1, by omega, .inr rfl⟩⟩
  · rintro (_ | k) <;> rfl
  · rintro (_ | k) hk ⟨-, h⟩
    · omega
    · exact Ret.noConfusion (show Ret.iteration .empty = .accepted true from h)

/-- The state before step `k` of a POLL that never ends, in a FIFO of one cell: a PUSH of 0x00 and an iteration
in turn. TD completes [00, 00, 00] at every third, and the dispatcher finds no entry for it. -/
def busy (k : Nat) : State :=
  { polling with
    par  := { qcapLess1 := 0, fbufLess3 := 255, cfgInitAddr := 0x05, decoder := .fixtureTD }
    qmem := [(0, 0x00)]
    cnt  := k % 2
    dec  := { scratch := List.replicate tdBufSize 0, ctl := k / 2 % 3 }
    diag := List.replicate (k / 6) .unknownCommand
    ret  := if k % 2 = 1 then .accepted true else .iteration .more }

/-- A PUSH at every second step. -/
def busyInputs (k : Nat) : List Request := if k % 2 = 0 then [producerWord 0x100] else []

/-- The six steps of one period, whatever DIAG holds. -/
theorem busy_period (d : List DiagCode) :
    stepWith (busyInputs 0) { busy 0 with diag := d } = .next { busy 1 with diag := d } ∧
    stepWith (busyInputs 1) { busy 1 with diag := d } = .next { busy 2 with diag := d } ∧
    stepWith (busyInputs 2) { busy 2 with diag := d } = .next { busy 3 with diag := d } ∧
    stepWith (busyInputs 3) { busy 3 with diag := d } = .next { busy 4 with diag := d } ∧
    stepWith (busyInputs 4) { busy 4 with diag := d } = .next { busy 5 with diag := d } ∧
    stepWith (busyInputs 5) { busy 5 with diag := d } =
      .next { busy 6 with diag := d ++ [.unknownCommand] } := by
  refine ⟨?_, ?_, ?_, ?_, ?_, ?_⟩ <;> with_unfolding_all rfl

theorem busy_isRun : IsRun busyInputs busy := by
  intro k
  obtain ⟨q, r, hr, rfl⟩ : ∃ q r, r < 6 ∧ k = 6 * q + r :=
    ⟨k / 6, k % 6, Nat.mod_lt _ (by decide), by omega⟩
  have inputs_eq : busyInputs (6 * q + r) = busyInputs r := by
    simp only [busyInputs, show (6 * q + r) % 2 = r % 2 by omega]
  have busy_eq : ∀ j, busy (6 * q + j) =
      { busy j with diag := List.replicate (q + j / 6) .unknownCommand } := by
    intro j
    simp only [busy, show (6 * q + j) % 2 = j % 2 by omega, show (6 * q + j) / 2 % 3 = j / 2 % 3 by omega,
      show (6 * q + j) / 6 = q + j / 6 by omega]
  obtain ⟨h₀, h₁, h₂, h₃, h₄, h₅⟩ := busy_period (List.replicate q .unknownCommand)
  rw [inputs_eq, Nat.add_assoc, busy_eq, busy_eq]
  obtain rfl | rfl | rfl | rfl | rfl | rfl : r = 0 ∨ r = 1 ∨ r = 2 ∨ r = 3 ∨ r = 4 ∨ r = 5 := by omega
  · exact h₀
  · exact h₁
  · exact h₂
  · exact h₃
  · exact h₄
  · rw [← List.replicate_succ'] at h₅
    exact h₅

/-- The first clause on that run, and the premises of the second. -/
theorem witness_APollGoesOnWhileTheFifoIsKeptFromEmptying :
    (IsRun busyInputs busy ∧ (busy 0).initDone = true ∧ (busy 0).cstate = .polling ∧
      IteratesAt busyInputs busy 1 ∧ ∀ k, IteratesAt busyInputs busy k → (busy k).cnt ≠ 0) ∧
    (Inv polling ∧ polling.initDone = true ∧ polling.cstate = .polling ∧ polling.pending = []) := by
  refine ⟨⟨busy_isRun, rfl, rfl, .inr (.inr ⟨rfl, rfl⟩), fun k h => ?_⟩,
    sound ready_scratch (by decide), rfl, rfl, rfl⟩
  rcases Nat.mod_two_eq_zero_or_one k with hk | hk
  · have arrived : (busy k).arriving (busyInputs k) = (busy k).arriving [producerWord 0x100] := by
      rw [busyInputs, if_pos hk]
    rw [IteratesAt, arrived] at h
    rcases h with ⟨_, h⟩ | ⟨_, h⟩ | ⟨h, -⟩ <;> cases h
  · show k % 2 ≠ 0
    omega

theorem witness_TheDecoderReturnsNoFrameLongerThanItsBuffer :
    tdInit.scratch.length = ready.par.fbufSize ∧
    (decFeed ready.par (holding [0x05, 0x07]) 0x00).2 = some [0x05, 0x07, 0x00] :=
  ⟨List.length_replicate, by decide⟩

theorem witness_AStepRunsTheDecodedTransaction :
    (Takes (asked ready (consumerWord 0x609 none)) .consumer (.setAddress 0x09) [] ∧
      mayIssue .consumer (.setAddress 0x09) = true) ∧
    (Takes (asked ready (producerWord 0x105)) .producer (.push 0x05) [] ∧
      mayIssue .producer (.push 0x05) = true) ∧
    (ready.pending = [] ∧ ready.inPoll = false) :=
  ⟨⟨⟨_, _, rfl, rfl⟩, rfl⟩, ⟨⟨_, _, rfl, rfl⟩, rfl⟩, rfl, rfl⟩

theorem witness_AStepRunsTheDeliveredFrame :
    let s := asked ready (consumerWord 0x400 (some [0x05, 0x07, 0x00]))
    s.cstate = .idle ∧ s.pending = [consumerWord 0x400 (some [0x05, 0x07, 0x00])] ∧
      decode (.frame [0x05, 0x07, 0x00]) = .ok (.saveSettings 0x05 0x00 []) := by decide

theorem witness_AFetchedTableWordIsWhatRuns :
    ready.initDone = true ∧ ready.cstate = .idle ∧ unready.initDone = false ∧
    (decodeTableWord 16 0x505 = some (.init 0x05) ∧ txnOf (.init 0x05) = some .init) ∧
    (decodeTableWord 16 0xF00 = some (.portReservedF 0x00) ∧ txnOf (.portReservedF 0x00) = none) ∧
    (txnOf (.saveSettings 0x05 0x00 []) = some .onFrame ∧ Txn.onFrame ≠ .init) ∧
    decodeTableWord 24 0x050700 = some (.saveSettings 0x05 0x00 []) ∧
    decodeTableWord 16 0x1FF = some (.push 0xFF) := by decide

/-- Every clause: both reserved ranges at their ends, a nonzero operand, a PUSH of the consumer, a POLL and an
INIT of the producer. -/
theorem witness_ReservedAndIllFormedWordsAreRefused :
    (asked ready (consumerWord 0x000 none)).pending = [consumerWord 0x000 none] ∧
    ((0x000#12).extractLsb' 8 4).toNat = 0 ∧ 8 ≤ ((0x800#12).extractLsb' 8 4).toNat ∧
    8 ≤ ((0xFFF#12).extractLsb' 8 4).toNat ∧
    (((0x7FF#12).extractLsb' 8 4).toNat = 7 ∧ ((0x7FF#12).extractLsb' 0 8) ≠ (0 : Byte)) ∧
    ((0x105#12).extractLsb' 8 4).toNat = 1 ∧
    (((0x300#12).extractLsb' 8 4).toNat = 3 ∧ ((0x300#12).extractLsb' 0 8) = (0 : Byte)) ∧
    ((0x505#12).extractLsb' 8 4).toNat = 5 := by decide

theorem witness_TransactionsOutsideTheirContextAreRefused :
    ready.initDone = true ∧
    (Takes (asked ready (consumerWord 0x105 none)) .consumer (.push 0x05) [] ∧
      txnOf (.push 0x05) = some .push) ∧
    (Takes (asked ready (consumerWord 0x609 none)) .consumer (.setAddress 0x09) [] ∧
      txnOf (.setAddress 0x09) = some .setAddress) ∧
    (asked ready iteration).pending = [{ issuer := .consumer, body := .pollIter }] :=
  ⟨rfl, ⟨⟨_, _, rfl, rfl⟩, rfl⟩, ⟨⟨_, _, rfl, rfl⟩, rfl⟩, rfl⟩

theorem witness_ASecondProducerAndAReentrantHandlerAreRefused :
    (asked ready { issuer := .secondProducer, body := .port 0x105 none }).pending =
      [{ issuer := .secondProducer, body := .port 0x105 none }] ∧
    (asked ready { issuer := .handler, body := .port 0x601 none }).pending =
      [{ issuer := .handler, body := .port 0x601 none }] := by decide

end Sys2Proof.Tests
end

section
/-! SUPPORT. What the FIFO's bodies, the dispatcher and an iteration of a POLL leave as it was: the frame facts
of the family 10_state. -/

namespace Sys2Proof.Machine

/-! ## Frames of the operations -/

/-- POP's body writes RD, CNT and the counter of free values alone. -/
theorem State.popByte_frame {s t : State} {r : Option Byte} (h : s.popByte = .ok (r, t)) :
    ∃ rd cnt fd, t = { s with rd := rd, cnt := cnt, freeDraws := fd } := by
  rcases State.popByte_cases h with ⟨-, -, rfl⟩ | ⟨-, -, b, -, ⟨-, rfl⟩ | ⟨-, -, rfl⟩⟩
  · exact ⟨_, _, _, rfl⟩
  · exact ⟨_, _, _, rfl⟩
  · exact ⟨_, _, _, rfl⟩

/-- PUSH's body writes QMEM, WR, CNT and DIAG alone: DIAG only grows, and of QMEM no cell but WR changes, which
takes the byte. -/
theorem State.pushByte_frame {s t : State} {b : Byte} {acc : Bool} (h : s.pushByte b = .ok (acc, t)) :
    ∃ m wr cnt ks, t = { s with qmem := m, wr := wr, cnt := cnt, diag := s.diag ++ ks } ∧
      ∀ k, m.read? k ≠ s.qmem.read? k → k = s.wr ∧ m.read? k = some b := by
  rcases State.pushByte_cases h with ⟨-, -, rfl⟩ | ⟨-, -, -, rfl⟩
  · exact ⟨_, _, _, [.queueOverflow], rfl, fun _ hk => absurd rfl hk⟩
  · refine ⟨_, _, _, [], by rw [List.append_nil], fun k hk => ?_⟩
    have hwr : k = s.wr := by
      by_contra hne
      exact hk (Memory.read?_write_other _ _ hne)
    exact ⟨hwr, by rw [hwr, Memory.read?_write_same]⟩

theorem afterPop_none (u : State) :
    afterPop (none, u) = { u with cstate := .idle }.returning (.iteration .empty) := rfl

theorem afterPop_some (b : Byte) (u : State) :
    afterPop (some b, u) = (u.feed b).returning (.iteration .more) := rfl

/-- What an iteration does after its POP writes no FIFO element, and TRACE and DIAG only grow. -/
theorem afterPop_frame (r : Option Byte) (u : State) :
    ∃ a dec cs tr ks ret, afterPop (r, u) = { u with
      devAddr := a, dec := dec, cstate := cs, trace := u.trace ++ tr, diag := u.diag ++ ks, ret := ret } := by
  cases r with
  | none => exact ⟨u.devAddr, u.dec, .idle, [], [], .iteration .empty, by
      rw [afterPop_none, List.append_nil, List.append_nil]; rfl⟩
  | some b =>
    obtain ⟨a, tr, ks, h, -⟩ := State.feed_frame u b
    exact ⟨a, _, u.cstate, tr, ks, .iteration .more, by rw [afterPop_some, h]; rfl⟩

/-- What every step keeps: the parameters, and what TRACE and DIAG held (10_state.md R20, R35). -/
structure Keeps (s t : State) : Prop where
  par   : t.par = s.par
  trace : s.trace <+: t.trace
  diag  : s.diag <+: t.diag

/-- What an iteration of a POLL keeps beside (44_poll_loop.md R221). -/
structure IterationKeeps (s t : State) : Prop extends Keeps s t where
  qmem     : t.qmem = s.qmem
  wr       : t.wr = s.wr
  initDone : t.initDone = s.initDone

/-- The iteration as `step_next_cases` gives it. -/
theorem iteration_keeps {s t u : State} {rest : List Request} {r : Option Byte}
    (hpop : { s with pending := rest }.popByte = .ok (r, u))
    (ht : t = { afterPop (r, u) with pending := t.pending }) : IterationKeeps s t := by
  obtain ⟨rd, cnt, fd, rfl⟩ := State.popByte_frame hpop
  obtain ⟨a, dec, cs, tr, ks, ret, h⟩ := afterPop_frame r
    { s with pending := rest, rd := rd, cnt := cnt, freeDraws := fd }
  rw [ht, h]
  exact ⟨⟨rfl, List.prefix_append _ _, List.prefix_append _ _⟩, rfl, rfl, rfl⟩

/-- A step keeps the parameters and what TRACE and DIAG held, and INIT alone writes INIT_DONE. -/
theorem step_keeps {s t : State} (hstep : step s = .next t) :
    Keeps s t ∧ (t.initDone = s.initDone ∨ ∃ a rest, Takes s .consumer (.init a) rest) := by
  rcases step_next_cases hstep with ⟨-, -, rfl⟩ | ⟨-, -, -, rest, r, u, hpop, ht⟩ |
    ⟨b, rest, -, -, acc, u, hpush, rfl⟩ | ⟨rest, -, -, r, u, hpop, rfl⟩ | ⟨rest, -, -, rfl⟩ |
    ⟨fo, rest, -, -, rfl⟩ | ⟨a, rest, htk, rfl⟩ | ⟨v, rest, -, -, rfl⟩ | ⟨rest, -, -, rfl⟩
  · -- nothing to do
    exact ⟨⟨rfl, List.prefix_rfl, List.prefix_rfl⟩, .inl rfl⟩
  · -- an iteration
    have hk := iteration_keeps hpop ht
    exact ⟨hk.toKeeps, .inl hk.initDone⟩
  · -- PUSH
    obtain ⟨m, wr, cnt, ks, rfl, -⟩ := State.pushByte_frame hpush
    exact ⟨⟨rfl, List.prefix_rfl, List.prefix_append _ _⟩, .inl rfl⟩
  · -- POP
    obtain ⟨rd, cnt, fd, rfl⟩ := State.popByte_frame hpop
    exact ⟨⟨rfl, List.prefix_rfl, List.prefix_rfl⟩, .inl rfl⟩
  · -- POLL
    exact ⟨⟨rfl, List.prefix_rfl, List.prefix_rfl⟩, .inl rfl⟩
  · -- ON_FRAME
    obtain ⟨a, tr, k, h, -⟩ := State.onFrame_dispatched { s with pending := rest } fo
    rw [h]
    exact ⟨⟨rfl, List.prefix_append _ _, List.prefix_append _ _⟩, .inl rfl⟩
  · -- INIT
    exact ⟨⟨rfl, List.prefix_rfl, List.prefix_rfl⟩, .inr ⟨a, rest, htk⟩⟩
  · -- SET_ADDRESS
    exact ⟨⟨rfl, List.prefix_rfl, List.prefix_rfl⟩, .inl rfl⟩
  · -- GET_ADDRESS
    exact ⟨⟨rfl, List.prefix_rfl, List.prefix_rfl⟩, .inl rfl⟩

end Sys2Proof.Machine
end

section
/-! SUPPORT. The invariant `Inv` is kept by each operation (10_state.md R23 to R27, R30; 20_memory.md R50). -/

namespace Sys2Proof.Machine

/-! ## The scratch buffer -/

/-- DecInit gives a scratch buffer of FBUF_SIZE bytes. -/
theorem decInit_scratch_length (p : Params) : (decInit p).scratch.length = p.fbufSize := by
  cases hd : p.decoder with
  | external => simp [decInit, hd]
  | fixtureTD => simp [decInit, hd, tdInit, Params.fbufSize]

/-- TD keeps the size of its scratch buffer. -/
theorem tdFeed_scratch_length (d : DecState) (b : Byte) :
    (tdFeed d b).1.scratch.length = d.scratch.length := by
  simp only [tdFeed]
  split_ifs
  · exact List.length_set
  · exact List.length_set

/-- DecFeed keeps a scratch buffer of FBUF_SIZE bytes. -/
theorem decFeed_scratch_length {p : Params} {d : DecState} (b : Byte)
    (h : d.scratch.length = p.fbufSize) : (decFeed p d b).1.scratch.length = p.fbufSize := by
  cases hd : p.decoder with
  | external => simp [decFeed, hd]
  | fixtureTD => simp only [decFeed, hd]; rw [tdFeed_scratch_length, h]

/-! ## The operations -/

/-- The dispatcher writes no element that `Inv` speaks of. -/
theorem Dispatched.inv {s t : State} (h : Dispatched s t) (hi : Inv s) : Inv t := by
  obtain ⟨a, tr, k, rfl, -⟩ := h
  exact hi

theorem State.feed_inv {s : State} (b : Byte) (hi : Inv s) : Inv (s.feed b) := by
  obtain ⟨a, tr, ks, h, -⟩ := State.feed_frame s b
  obtain ⟨hwf, hin, hscr, hfifo⟩ := hi
  rw [h]
  exact ⟨hwf, hin, decFeed_scratch_length b hscr, hfifo⟩

theorem State.pushByte_inv {s t : State} {b : Byte} {acc : Bool} (hi : Inv s) (hd : s.initDone = true)
    (h : s.pushByte b = .ok (acc, t)) : Inv t := by
  obtain ⟨hwf, hin, hscr, hfifo⟩ := hi
  obtain ⟨hfifo', hwf', hin'⟩ := State.pushByte_keeps (hfifo hd) hwf hin h
  obtain ⟨hdec, -, hpar, -⟩ := State.pushByte_consumer h
  exact ⟨hwf', hin', by rw [ScratchInv, hdec, hpar]; exact hscr, fun _ => hfifo'⟩

theorem State.popByte_inv {s t : State} {r : Option Byte} (hi : Inv s) (hd : s.initDone = true)
    (h : s.popByte = .ok (r, t)) : Inv t := by
  obtain ⟨hwf, hin, hscr, hfifo⟩ := hi
  obtain ⟨hfifo', -⟩ := State.popByte_keeps (hfifo hd) h
  obtain ⟨rd, cnt, fd, rfl⟩ := State.popByte_frame h
  exact ⟨hwf, hin, hscr, fun _ => hfifo'⟩

theorem afterPop_inv {u : State} (r : Option Byte) (hi : Inv u) : Inv (afterPop (r, u)) := by
  cases r with
  | none => exact hi
  | some b => exact State.feed_inv b hi

theorem State.initialised_inv (s : State) (a : Byte) : Inv (s.initialised a) :=
  ⟨rfl, rfl, decInit_scratch_length s.par, fun _ =>
    ⟨Params.qcap_pos _, Params.qcap_pos _, Nat.zero_le _, rfl, fun _ hi => absurd hi (Nat.not_lt_zero _)⟩⟩

end Sys2Proof.Machine
end

section
/-! SUPPORT. The dispatcher writes DEV_ADDR by command 0xA0 alone (10_state.md R22; 43_address.md R203). -/

namespace Sys2Proof.Machine

/-- From `s` to `t` DEV_ADDR is as it was, or exactly one handler call was made: 0xA0 with the new value as
first parameter (43_address.md R203). -/
def AddressByCommand (s t : State) : Prop :=
  t.devAddr ≠ s.devAddr → ∃ p, t.trace = s.trace ++ [{ code := 0xA0, params := t.devAddr :: p }]

theorem addressByCommand_of_eq {s t : State} (h : t.devAddr = s.devAddr) : AddressByCommand s t :=
  absurd h

/-- Of the handlers that of 0xA0 alone writes DEV_ADDR. -/
theorem callHandler_address (h : Handler) (p : List Byte) (s : State) :
    AddressByCommand s (callHandler h p s) := by
  cases h
  case setDeviceAddress =>
    cases p with
    | nil => exact addressByCommand_of_eq rfl
    | cons v p => exact fun _ => ⟨p, rfl⟩
  all_goals exact addressByCommand_of_eq rfl

theorem runEntry_address (e : Entry) (p : List Byte) (s : State) :
    AddressByCommand s (runEntry e p s) := by
  cases e with
  | handler h => exact callHandler_address h p s
  | noHandler => exact addressByCommand_of_eq rfl
  | absent => exact addressByCommand_of_eq rfl

theorem State.onFrame_address (s : State) (fo : Option Frame) : AddressByCommand s (s.onFrame fo) := by
  unfold State.onFrame
  split
  · rename_i addr cmd n rest
    rcases frameThen_cases addr n rest (runEntry (cmdTable cmd)) s with ⟨-, h⟩ | ⟨-, -, h⟩ | ⟨-, -, h⟩ <;> rw [h]
    · exact addressByCommand_of_eq rfl
    · exact addressByCommand_of_eq rfl
    · exact runEntry_address _ _ s
  · exact addressByCommand_of_eq rfl

theorem State.feed_address (s : State) (b : Byte) : AddressByCommand s (s.feed b) := by
  rcases State.feed_cases s b with ⟨-, h⟩ | ⟨f, -, h⟩ <;> rw [h]
  · exact addressByCommand_of_eq rfl
  · exact State.onFrame_address { s with dec := (decFeed s.par s.dec b).1 } (some f)

theorem afterPop_address (r : Option Byte) (u : State) : AddressByCommand u (afterPop (r, u)) := by
  cases r with
  | none => exact addressByCommand_of_eq rfl
  | some b => exact State.feed_address u b

/-- An iteration, in the form `step_next_cases` gives it, writes DEV_ADDR by a command alone. -/
theorem iteration_address {s t u : State} {rest : List Request} {r : Option Byte}
    (hpop : { s with pending := rest }.popByte = .ok (r, u))
    (ht : t = { afterPop (r, u) with pending := t.pending }) : AddressByCommand s t := by
  obtain ⟨rd, cnt, fd, rfl⟩ := State.popByte_frame hpop
  rw [ht]
  exact afterPop_address r { s with pending := rest, rd := rd, cnt := cnt, freeDraws := fd }

end Sys2Proof.Machine
end

section
/-! SUPPORT. What a step takes while INIT_DONE = 0 is refused, unless it is INIT (10_state.md R31). -/

namespace Sys2Proof.Machine

theorem State.afterInit_refused {s : State} (h : s.initDone = false) (k : Out) :
    s.afterInit k = .refused .notInitialized := by
  simp [State.afterInit, h]

/-- Every transaction but INIT begins with the check of INIT_DONE. -/
theorem exec_eq_afterInit {i : Instr} {x : Txn} (hx : txnOf i = some x) (hne : x ≠ .init) (s : State) :
    ∃ k, exec i s = s.afterInit k := by
  cases i
  case init => cases hx; exact absurd rfl hne
  case portReserved0 | portReserved8 | portReserved9 | portReservedA | portReservedB | portReservedC |
      portReservedD | portReservedE | portReservedF => cases hx
  all_goals exact ⟨_, rfl⟩

/-- So does an iteration. -/
theorem pollIter_refused {s : State} (h : s.initDone = false) : pollIter s = .refused .notInitialized :=
  State.afterInit_refused h _

/-- A step that takes a port transaction of an agent that may issue it runs its meaning. -/
theorem step_takes {s : State} {who : Issuer} {i : Instr} {rest : List Request} (h : Takes s who i rest)
    (hwho : who = .producer ∨ who = .consumer) (hmay : mayIssue who i = true) :
    step s = exec i { s with pending := rest } := by
  obtain ⟨w, payload, hpend, hdec⟩ := h
  have hserve : servePort who w payload { s with pending := rest } = exec i { s with pending := rest } := by
    simp [servePort, hdec, hmay, whenAllowed]
  rw [← hserve]
  rcases hwho with rfl | rfl
  · simp [step, hpend, serve, serveBody]
  · simp [step, hpend, serve, serveBody]

/-- An agent that may issue a transaction is the producer or the consumer. -/
theorem agentMay_issuer {who : Issuer} {x : Txn} (h : agentMay who x = true) :
    who = .producer ∨ who = .consumer := by
  cases who with
  | producer => exact .inl rfl
  | consumer => exact .inr rfl
  | secondProducer => cases h
  | handler => cases h

theorem step_takes_refused {s : State} {who : Issuer} {i : Instr} {x : Txn} {rest : List Request}
    (hd : s.initDone = false) (htk : Takes s who i rest) (hx : txnOf i = some x) (hne : x ≠ .init)
    (hmay : agentMay who x = true) : step s = .refused .notInitialized := by
  obtain ⟨k, hk⟩ := exec_eq_afterInit hx hne { s with pending := rest }
  rw [step_takes htk (agentMay_issuer hmay) (by simpa [mayIssue, hx] using hmay), hk]
  exact State.afterInit_refused hd k

theorem step_iteration_refused {s : State} {body : Body} {rest : List Request} (hd : s.initDone = false)
    (hbody : body = .pollIter ∨ body = .pollRest)
    (hpend : s.pending = { issuer := .consumer, body := body } :: rest) :
    step s = .refused .notInitialized := by
  have hiter : servePollIter .consumer { s with pending := rest } = .refused .notInitialized :=
    pollIter_refused (s := { s with pending := rest }) hd
  rcases hbody with rfl | rfl
  · simp [step, hpend, serve, serveBody, hiter]
  · simp [step, hpend, serve, serveBody, servePollRest, hiter]

end Sys2Proof.Machine
end

section
/-! The statements of the family 10_state. -/

namespace Sys2Proof.Machine

/-- Settles O8: these three are the reset values the spec gives. -/
theorem resetLeavesInitDoneClearAndTheListsEmpty : Obligations.ResetLeavesInitDoneClearAndTheListsEmpty :=
  ⟨rfl, rfl, rfl⟩

/-- Settles O9: no cell is listed, the buffer holds FBUF_SIZE zeros, and the FIFO's part is not asked before
INIT. -/
theorem invariantHoldsAtReset : Obligations.InvariantHoldsAtReset :=
  ⟨rfl, rfl, List.length_replicate, fun h => nomatch h⟩

/-- Settles O10, by what the step took: each operation it runs keeps the invariant, and the fields it writes
beside are none of the invariant's. -/
theorem stepKeepsTheInvariant : Obligations.StepKeepsTheInvariant := by
  intro s t hi hstep
  have hi' : ∀ rest, Inv { s with pending := rest } := fun _ => hi
  rcases step_next_cases hstep with ⟨-, -, rfl⟩ | ⟨-, hd, -, rest, r, u, hpop, ht⟩ |
    ⟨b, rest, -, hd, acc, u, hpush, rfl⟩ | ⟨rest, -, hd, r, u, hpop, rfl⟩ | ⟨rest, -, -, rfl⟩ |
    ⟨fo, rest, -, -, rfl⟩ | ⟨a, rest, -, rfl⟩ | ⟨v, rest, -, -, rfl⟩ | ⟨rest, -, -, rfl⟩
  · -- nothing to do
    exact hi
  · -- an iteration
    rw [ht]
    exact afterPop_inv r (State.popByte_inv (hi' rest) hd hpop)
  · -- PUSH
    have hu : Inv u := State.pushByte_inv (hi' rest) hd hpush
    exact hu
  · -- POP
    have hu : Inv u := State.popByte_inv (hi' rest) hd hpop
    exact hu
  · -- POLL
    exact hi
  · -- ON_FRAME
    exact (State.onFrame_dispatched { s with pending := rest } fo).inv (hi' rest)
  · -- INIT
    exact State.initialised_inv { s with pending := rest } a
  · -- SET_ADDRESS
    exact hi
  · -- GET_ADDRESS
    exact hi

/-- Settles O19, by `step_keeps`. -/
theorem parametersAreConstant : Obligations.ParametersAreConstant :=
  fun _ _ hstep => (step_keeps hstep).1.par

/-- Settles O18, by `step_keeps`. -/
theorem traceAndDiagOnlyGrow : Obligations.TraceAndDiagOnlyGrow := by
  refine ⟨⟨rfl, rfl⟩, fun s t hstep => ?_⟩
  obtain ⟨hk, -⟩ := step_keeps hstep
  exact ⟨hk.trace, hk.diag⟩

/-- Settles O17, by what the step took: a clause whose element the transaction may write names it, and in the
others the element is as it was. -/
theorem fifoAndSequencerHaveTheirWritersOnly : Obligations.FifoAndSequencerHaveTheirWritersOnly := by
  intro s t hstep
  rcases step_next_cases hstep with ⟨-, -, rfl⟩ | ⟨hit, -, -, rest, r, u, hpop, ht⟩ |
    ⟨b, rest, htk, -, acc, u, hpush, rfl⟩ | ⟨rest, htk, -, r, u, hpop, rfl⟩ | ⟨rest, htk, -, rfl⟩ |
    ⟨fo, rest, -, -, rfl⟩ | ⟨a, rest, htk, rfl⟩ | ⟨v, rest, -, -, rfl⟩ | ⟨rest, -, -, rfl⟩
  · -- nothing to do
    exact ⟨absurd rfl, absurd rfl, absurd rfl, absurd rfl, absurd rfl, fun _ => absurd rfl⟩
  · -- an iteration
    have hk := iteration_keeps hpop ht
    exact ⟨absurd hk.wr, fun _ => .inr (.inl hit), fun _ => .inr (.inr (.inl hit)), fun _ => .inl hit,
      fun _ => .inr (.inl hit), fun k => absurd (congrArg (Memory.read? · k) hk.qmem)⟩
  · -- PUSH
    obtain ⟨m, wr, cnt, ks, rfl, hcell⟩ := State.pushByte_frame hpush
    exact ⟨fun _ => .inl ⟨b, rest, htk⟩, absurd rfl, fun _ => .inl ⟨b, rest, htk⟩, absurd rfl, absurd rfl,
      fun k hk => .inl ⟨b, rest, htk, hcell k hk⟩⟩
  · -- POP
    obtain ⟨rd, cnt, fd, rfl⟩ := State.popByte_frame hpop
    exact ⟨absurd rfl, fun _ => .inl ⟨rest, htk⟩, fun _ => .inr (.inl ⟨rest, htk⟩), absurd rfl, absurd rfl,
      fun _ => absurd rfl⟩
  · -- POLL
    exact ⟨absurd rfl, absurd rfl, absurd rfl, absurd rfl, fun _ => .inl ⟨rest, htk⟩, fun _ => absurd rfl⟩
  · -- ON_FRAME
    obtain ⟨a, tr, k, h, -⟩ := State.onFrame_dispatched { s with pending := rest } fo
    rw [h]
    exact ⟨absurd rfl, absurd rfl, absurd rfl, absurd rfl, absurd rfl, fun _ => absurd rfl⟩
  · -- INIT
    have hinit : ∃ a rest, Takes s .consumer (.init a) rest := ⟨a, rest, htk⟩
    exact ⟨fun _ => .inr hinit, fun _ => .inr (.inr hinit), fun _ => .inr (.inr (.inr hinit)),
      fun _ => .inr hinit, fun _ => .inr (.inr hinit), fun _ _ => .inr hinit⟩
  · -- SET_ADDRESS
    exact ⟨absurd rfl, absurd rfl, absurd rfl, absurd rfl, absurd rfl, fun _ => absurd rfl⟩
  · -- GET_ADDRESS
    exact ⟨absurd rfl, absurd rfl, absurd rfl, absurd rfl, absurd rfl, fun _ => absurd rfl⟩

/-- Settles O16, by what the step took: INIT and SET_ADDRESS write their operand, ON_FRAME and an iteration
write by a command alone, and nothing else writes DEV_ADDR. -/
theorem deviceAddressHasThreeWriters : Obligations.DeviceAddressHasThreeWriters := by
  intro s t hstep hne
  rcases step_next_cases hstep with ⟨-, -, rfl⟩ | ⟨hit, -, -, rest, r, u, hpop, ht⟩ |
    ⟨b, rest, -, -, acc, u, hpush, rfl⟩ | ⟨rest, -, -, r, u, hpop, rfl⟩ | ⟨rest, -, -, rfl⟩ |
    ⟨fo, rest, htk, -, rfl⟩ | ⟨a, rest, htk, rfl⟩ | ⟨v, rest, htk, -, rfl⟩ | ⟨rest, -, -, rfl⟩
  · -- nothing to do
    exact absurd rfl hne
  · -- an iteration
    exact .inr (.inr ⟨.inr hit, iteration_address hpop ht hne⟩)
  · -- PUSH
    obtain ⟨m, wr, cnt, ks, rfl, -⟩ := State.pushByte_frame hpush
    exact absurd rfl hne
  · -- POP
    obtain ⟨rd, cnt, fd, rfl⟩ := State.popByte_frame hpop
    exact absurd rfl hne
  · -- POLL
    exact absurd rfl hne
  · -- ON_FRAME
    exact .inr (.inr ⟨.inl ⟨fo, rest, htk⟩, State.onFrame_address { s with pending := rest } fo hne⟩)
  · -- INIT
    exact .inl ⟨rest, htk⟩
  · -- SET_ADDRESS
    exact .inr (.inl ⟨rest, htk⟩)
  · -- GET_ADDRESS
    exact absurd rfl hne

/-- Settles O11: INIT's own next state, `step_keeps` for its sole writer, and the check of INIT_DONE that every
other transaction begins with. -/
theorem initDoneIsWrittenByInitAloneAndGuardsEverythingElse :
    Obligations.InitDoneIsWrittenByInitAloneAndGuardsEverythingElse := by
  refine ⟨rfl, fun a s t h => ?_, fun a s hd => ?_, fun s t hstep hne => ?_,
    fun _ _ _ _ _ => step_takes_refused, fun _ _ _ => step_iteration_refused⟩
  · obtain ⟨-, rfl⟩ := execInit_next.1 h
    rfl
  · have hidle : s.initDone = true → s.cstate = .idle := by simp [hd]
    exact ⟨_, execInit_next.2 ⟨hidle, rfl⟩⟩
  · exact (step_keeps hstep).2.resolve_left hne

end Sys2Proof.Machine
end

section
/-! SUPPORT. What each operation does to the FIFO's content `Q`, and which transaction a step that acts on `Q` took
(20_memory.md R60; 10_state.md R23, R28). -/

namespace Sys2Proof.Machine

/-! ## The operations on `Q` -/

/-- PUSH's body appends the byte, or rejects it from a full `Q`. -/
theorem State.pushByte_queue_cases {s u : State} {b : Byte} {acc : Bool} (hi : FifoInv s)
    (h : s.pushByte b = .ok (acc, u)) :
    u.freeDraws = s.freeDraws ∧
    ((s.queue.length < s.par.qcap ∧ u.queue = s.queue ++ [b] ∧ acc = true) ∨
     (s.queue.length = s.par.qcap ∧ u.queue = s.queue ∧ acc = false)) := by
  have hlen : s.queue.length = s.cnt := State.queue_length hi
  rcases State.pushByte_cases h with ⟨hfull, rfl, rfl⟩ | ⟨-, -, rfl, hu⟩
  · exact ⟨rfl, .inr ⟨hlen.trans hfull, rfl, rfl⟩⟩
  · obtain ⟨hqueue, hlt⟩ := State.pushByte_queue hi h
    exact ⟨by rw [hu], .inl ⟨hlen.trans_lt hlt, hqueue, rfl⟩⟩

/-- POP's body finds `Q` empty, or takes its oldest byte. -/
theorem State.popByte_queue_cases {s u : State} {r : Option Byte} (hi : FifoInv s)
    (h : s.popByte = .ok (r, u)) :
    u.freeDraws = s.freeDraws ∧
    ((s.queue = [] ∧ r = none ∧ u = s) ∨ ∃ b, s.queue = b :: u.queue ∧ r = some b) := by
  cases r with
  | none =>
    obtain ⟨hcnt, rfl⟩ := State.popByte_none h
    exact ⟨rfl, .inl ⟨State.queue_of_cnt_zero hcnt, rfl, rfl⟩⟩
  | some b =>
    obtain ⟨hqueue, hdraws, -⟩ := State.popByte_queue hi h
    exact ⟨hdraws, .inr ⟨b, hqueue, rfl⟩⟩

/-- From `s` to `t` neither `Q` nor the counter of free values changes. -/
def QueueKept (s t : State) : Prop := t.queue = s.queue ∧ t.freeDraws = s.freeDraws

theorem State.onFrame_queueKept (s : State) (fo : Option Frame) : QueueKept s (s.onFrame fo) := by
  obtain ⟨a, tr, k, h, -⟩ := State.onFrame_dispatched s fo
  rw [h]
  exact ⟨rfl, rfl⟩

theorem State.feed_queueKept (s : State) (b : Byte) : QueueKept s (s.feed b) := by
  obtain ⟨a, tr, ks, h, -⟩ := State.feed_frame s b
  rw [h]
  exact ⟨rfl, rfl⟩

theorem State.feed_dec (s : State) (b : Byte) : (s.feed b).dec = (decFeed s.par s.dec b).1 := by
  obtain ⟨a, tr, ks, h, -⟩ := State.feed_frame s b
  rw [h]

/-! ## The step by what it takes -/

/-- A step that takes a PUSH ran its body. -/
theorem step_push_next {s t : State} {b : Byte} {rest : List Request}
    (htk : Takes s .producer (.push b) rest) (h : step s = .next t) :
    ∃ acc u, { s with pending := rest }.pushByte b = .ok (acc, u) ∧ t = u.returning (.accepted acc) := by
  rw [step_takes htk (.inl rfl) rfl] at h
  exact (execPush_next.1 h).2

/-- A step that takes a POP ran its body. -/
theorem step_pop_next {s t : State} {rest : List Request} (htk : Takes s .consumer .pop rest)
    (h : step s = .next t) :
    ∃ r u, { s with pending := rest }.popByte = .ok (r, u) ∧ t = u.returning (.popped r) := by
  rw [step_takes htk (.inr rfl) rfl] at h
  obtain ⟨-, -, hpop⟩ := execPop_next.1 h
  exact hpop

/-- A step that takes an INIT set the block up. -/
theorem step_init_next {s t : State} {a : Byte} {rest : List Request}
    (htk : Takes s .consumer (.init a) rest) (h : step s = .next t) :
    t = ({ s with pending := rest }.initialised a).returning .nothing := by
  rw [step_takes htk (.inr rfl) rfl] at h
  exact (execInit_next.1 h).2

/-- Where an iteration is next, the step is one. -/
theorem step_iterates_next {s t : State} (hit : Iterates s) (h : step s = .next t) :
    ∃ rest r u, { s with pending := rest }.popByte = .ok (r, u) ∧
      t = { afterPop (r, u) with pending := t.pending } := by
  rcases step_cases h with ⟨hnil, hpoll, -⟩ | ⟨-, -, -, hpop⟩ | ⟨who, w, payload, i, rest, hpend, hdec, -⟩
  · rcases hit with ⟨rest, hpend⟩ | ⟨rest, hpend⟩ | ⟨-, hin⟩
    · rw [hnil] at hpend; cases hpend
    · rw [hnil] at hpend; cases hpend
    · rw [hpoll] at hin; cases hin
  · exact hpop
  · exact absurd hit (takes_not_iterates ⟨w, payload, hpend, hdec⟩)

/-- Where nothing is pending and no POLL is in progress, a step changes nothing. -/
theorem step_nothing {s : State} (hpend : s.pending = []) (hpoll : s.inPoll = false) : step s = .next s := by
  simp [step, idleStep, hpend, hpoll]

/-- A step takes one of the four that act on `Q`, or keeps `Q`. -/
theorem step_queue_cases {s t : State} (h : step s = .next t) :
    (∃ b rest, Takes s .producer (.push b) rest) ∨ (∃ rest, Takes s .consumer .pop rest) ∨ Iterates s ∨
    (∃ a rest, Takes s .consumer (.init a) rest) ∨ QueueKept s t := by
  rcases step_next_cases h with ⟨-, -, rfl⟩ | ⟨hit, -⟩ | ⟨b, rest, htk, -⟩ | ⟨rest, htk, -⟩ |
    ⟨rest, -, -, rfl⟩ | ⟨fo, rest, -, -, rfl⟩ | ⟨a, rest, htk, -⟩ | ⟨v, rest, -, -, rfl⟩ | ⟨rest, -, -, rfl⟩
  · -- nothing to do
    exact .inr (.inr (.inr (.inr ⟨rfl, rfl⟩)))
  · -- an iteration
    exact .inr (.inr (.inl hit))
  · -- PUSH
    exact .inl ⟨b, rest, htk⟩
  · -- POP
    exact .inr (.inl ⟨rest, htk⟩)
  · -- POLL
    exact .inr (.inr (.inr (.inr ⟨rfl, rfl⟩)))
  · -- ON_FRAME
    exact .inr (.inr (.inr (.inr (State.onFrame_queueKept { s with pending := rest } fo))))
  · -- INIT
    exact .inr (.inr (.inr (.inl ⟨a, rest, htk⟩)))
  · -- SET_ADDRESS
    exact .inr (.inr (.inr (.inr ⟨rfl, rfl⟩)))
  · -- GET_ADDRESS
    exact .inr (.inr (.inr (.inr ⟨rfl, rfl⟩)))

/-! ## The step on `Q` -/

/-- A step that takes a PUSH appends the byte, or rejects it from a full `Q`. -/
theorem step_push_queue {s t : State} {b : Byte} {rest : List Request} (hi : FifoInv s)
    (htk : Takes s .producer (.push b) rest) (h : step s = .next t) :
    t.freeDraws = s.freeDraws ∧
    ((s.queue.length < s.par.qcap ∧ t.queue = s.queue ++ [b] ∧ t.ret = .accepted true) ∨
     (s.queue.length = s.par.qcap ∧ t.queue = s.queue ∧ t.ret = .accepted false)) := by
  obtain ⟨acc, u, hpush, rfl⟩ := step_push_next htk h
  obtain ⟨hdraws, ⟨hlt, hqueue, rfl⟩ | ⟨hfull, hqueue, rfl⟩⟩ :=
    State.pushByte_queue_cases (s := { s with pending := rest }) hi hpush
  · exact ⟨hdraws, .inl ⟨hlt, hqueue, rfl⟩⟩
  · exact ⟨hdraws, .inr ⟨hfull, hqueue, rfl⟩⟩

/-- A step that takes a POP returns nothing from an empty `Q`, or takes the oldest byte. -/
theorem step_pop_queue {s t : State} {rest : List Request} (hi : FifoInv s)
    (htk : Takes s .consumer .pop rest) (h : step s = .next t) :
    t.freeDraws = s.freeDraws ∧
    ((s.queue = [] ∧ t.queue = [] ∧ t.ret = .popped none) ∨
     ∃ b, s.queue = b :: t.queue ∧ t.ret = .popped (some b)) := by
  obtain ⟨r, u, hpop, rfl⟩ := step_pop_next htk h
  obtain ⟨hdraws, ⟨hnil, rfl, rfl⟩ | ⟨b, hqueue, rfl⟩⟩ :=
    State.popByte_queue_cases (s := { s with pending := rest }) hi hpop
  · exact ⟨hdraws, .inl ⟨hnil, hnil, rfl⟩⟩
  · exact ⟨hdraws, .inr ⟨b, hqueue, rfl⟩⟩

/-- An iteration ends the POLL on an empty `Q`, or feeds the oldest byte to the decoder. -/
theorem step_iterates_queue {s t : State} (hi : FifoInv s) (hit : Iterates s) (h : step s = .next t) :
    t.freeDraws = s.freeDraws ∧
    ((s.queue = [] ∧ t.queue = [] ∧ t.ret = .iteration .empty ∧ t.cstate = .idle ∧ t.dec = s.dec) ∨
     ∃ b, s.queue = b :: t.queue ∧ t.ret = .iteration .more ∧ t.dec = (decFeed s.par s.dec b).1) := by
  obtain ⟨rest, r, u, hpop, ht⟩ := step_iterates_next hit h
  obtain ⟨hdraws, hcases⟩ := State.popByte_queue_cases (s := { s with pending := rest }) hi hpop
  rcases hcases with ⟨hnil, rfl, rfl⟩ | ⟨b, hqueue, rfl⟩
  · rw [ht]
    exact ⟨hdraws, .inl ⟨hnil, hnil, rfl, rfl, rfl⟩⟩
  · obtain ⟨hdec, -, hpar, -⟩ := State.popByte_consumer hpop
    obtain ⟨hq, hd⟩ := State.feed_queueKept u b
    have htq : t.queue = u.queue := by rw [ht]; exact hq
    have htd : t.freeDraws = u.freeDraws := by rw [ht]; exact hd
    have htdec : t.dec = (decFeed s.par s.dec b).1 := by
      rw [ht]
      exact (State.feed_dec u b).trans (by rw [hdec, hpar])
    exact ⟨htd.trans hdraws, .inr ⟨b, htq ▸ hqueue, by rw [ht]; rfl, htdec⟩⟩

/-- A step that takes an INIT empties `Q`. -/
theorem step_init_queue {s t : State} {a : Byte} {rest : List Request}
    (htk : Takes s .consumer (.init a) rest) (h : step s = .next t) :
    t.freeDraws = s.freeDraws ∧ t.queue = [] := by
  rw [step_init_next htk h]
  exact ⟨rfl, rfl⟩

/-- After INIT no step of a sound state draws a free value. -/
theorem step_freeDraws {s t : State} (hi : FifoInv s) (h : step s = .next t) : t.freeDraws = s.freeDraws := by
  rcases step_queue_cases h with ⟨b, rest, htk⟩ | ⟨rest, htk⟩ | hit | ⟨a, rest, htk⟩ | ⟨-, hdraws⟩
  · exact (step_push_queue hi htk h).1
  · exact (step_pop_queue hi htk h).1
  · exact (step_iterates_queue hi hit h).1
  · exact (step_init_queue htk h).1
  · exact hdraws

end Sys2Proof.Machine
end

section
/-! The statements of the family 20_memory. -/

namespace Sys2Proof.Machine

/-- Settles O22, by what the step took: the body of PUSH, POP or the iteration acts on `Q`, INIT empties it, and
every other step keeps it. -/
theorem fifoKeepsOrderAndLosesNothing : Obligations.FifoKeepsOrderAndLosesNothing := by
  intro s t ⟨_, _, _, hfifo⟩ hd h
  have hi : FifoInv s := hfifo hd
  refine ⟨State.queue_length hi, step_freeDraws hi h, fun _ _ htk => (step_push_queue hi htk h).2,
    fun _ htk => (step_pop_queue hi htk h).2, fun hit => (step_iterates_queue hi hit h).2,
    fun _ _ htk => (step_init_queue htk h).2, fun hpush hpop hiter hinit => ?_⟩
  rcases step_queue_cases h with ⟨b, rest, htk⟩ | ⟨rest, htk⟩ | hit | ⟨a, rest, htk⟩ | ⟨hqueue, -⟩
  · exact absurd htk (hpush b rest)
  · exact absurd htk (hpop rest)
  · exact absurd hit hiter
  · exact absurd htk (hinit a rest)
  · exact hqueue

/-- Settles O46, by `step_takes` and `step_nothing`. -/
theorem aStepRunsTheDecodedTransaction : Obligations.AStepRunsTheDecodedTransaction :=
  ⟨fun _ _ _ _ => step_takes, fun _ => step_nothing⟩

end Sys2Proof.Machine
end

section
/-! SUPPORT. The decoder and the encoder are inverse to each other on frames and on port words, and what a port
word's selector says (30_encoding.md R80 to R90). -/

namespace Sys2Proof

/-! ## Bits as numbers -/

/-- What stands before the low `k` bits counts by `2 ^ k`. -/
theorem toNat_append_eq_add {m k : Nat} (p : BitVec m) (x : BitVec k) :
    (p ++ x).toNat = p.toNat * 2 ^ k + x.toNat := by
  rw [BitVec.toNat_append, ← Nat.shiftLeft_add_eq_or_of_lt x.isLt, Nat.shiftLeft_eq]

/-- The decoder's test for one command code (R86), as an equation of numbers. -/
theorem code_eq_iff (cmd c : Byte) : cmd = c ↔ cmd.toNat = c.toNat := BitVec.toNat_inj.symm

/-- The decoder's test for a block of command codes (R86), as an equation of numbers: the codes of a block differ
in their low `k` bits alone. -/
theorem codeBlock_iff {k m : Nat} (h : k + m = 8) (cmd : Byte) (p : BitVec m) :
    cmd.extractLsb' k m = p ↔ cmd.toNat / 2 ^ k = p.toNat := by
  have hlt : cmd.toNat / 2 ^ k < 2 ^ m := by
    rw [Nat.div_lt_iff_lt_mul (Nat.two_pow_pos k), ← pow_add, Nat.add_comm, h]
    exact cmd.isLt
  rw [← BitVec.toNat_inj, BitVec.extractLsb'_toNat, Nat.shiftRight_eq_div_pow, Nat.mod_eq_of_lt hlt]

/-! ## Decoding what was encoded -/

/-- No bit of an encoding is dropped. A block's own test holds of its codes and every test before it fails, by
their numbers; a port word gives its selector and its operand back. -/
theorem decode_encode (i : Instr) : decode (encode i) = .ok i := by
  cases i
  case unassigned0C0F addr x n rest | unassigned101F addr x n rest | unassigned203F addr x n rest |
      unassigned407F addr x n rest | unassigned809F addr x n rest | unassignedA2A3 addr x n rest |
      unassignedA4A7 addr x n rest | unassignedA8AF addr x n rest | unassignedB0BF addr x n rest |
      unassignedC0DF addr x n rest | unassignedE0EF addr x n rest | unassignedF0F7 addr x n rest |
      unassignedF8FB addr x n rest | unassignedFCFD addr x n rest =>
    have hx := x.isLt
    simp only [encode, decode, decodeFrame, decodeCommand, codeBlock_iff, code_eq_iff, toNat_append_eq_add,
      BitVec.reduceToNat]
    simp (disch := omega) only [↓if_neg, ↓if_pos, BitVec.extractLsb'_append_eq_right]
  case push | init | setAddress | portReserved0 | portReserved8 | portReserved9 | portReservedA |
      portReservedB | portReservedC | portReservedD | portReservedE | portReservedF =>
    simp only [encode, decode, decodePort, BitVec.extractLsb'_append_eq_left,
      BitVec.extractLsb'_append_eq_right, BitVec.reduceToNat]
  all_goals rfl

/-! ## Encoding what was decoded -/

/-- Every header is the header of the instruction it decodes to. In each branch of the command-code map the test
gives the code's fixed bits back; the last branch is left with the one code that no test holds of. -/
theorem encode_decodeCommand (addr cmd n : Byte) (rest : Frame) :
    encode (decodeCommand addr cmd n rest) = .frame (addr :: cmd :: n :: rest) := by
  have hlt := cmd.isLt
  unfold decodeCommand
  iterate 29
    apply iteInduction (motive := fun i => encode i = .frame (addr :: cmd :: n :: rest))
    · intro h
      simp only [encode, ← h, BitVec.extractLsb'_append_extractLsb']
    intro _
  have hcmd : cmd = 0xFF#8 := by
    simp only [codeBlock_iff, code_eq_iff, BitVec.reduceToNat] at *
    omega
  rw [hcmd]
  rfl

theorem encode_of_decodeFrame {f : Frame} {i : Instr} (h : decodeFrame f = .ok i) : encode i = .frame f := by
  unfold decodeFrame at h
  split at h
  · cases h
    exact encode_decodeCommand _ _ _ _
  · cases h

theorem decodeFrame_of_length {f : Frame} (h : 3 ≤ f.length) : ∃ i, decodeFrame f = .ok i := by
  match f, h with
  | addr :: cmd :: n :: rest, _ => exact ⟨_, rfl⟩

theorem decodeFrame_short {f : Frame} (h : f.length < 3) : decodeFrame f = .error .shortFrame := by
  match f, h with
  | [], _ => rfl
  | [_], _ => rfl
  | [_, _], _ => rfl
  | _ :: _ :: _ :: _, h => simp only [List.length_cons] at h; omega

/-- A port word is its selector and its operand (R89). -/
theorem portWord_append (w : PortWord) : ∃ (sel : BitVec 4) (opd : Byte), w = sel ++ opd :=
  ⟨w.extractLsb' 8 4, w.extractLsb' 0 8, (BitVec.extractLsb'_append_extractLsb' (w := 4) (len := 8)).symm⟩

theorem eq_ofNat_of_toNat_eq {m k : Nat} {x : BitVec m} (h : x.toNat = k) : x = BitVec.ofNat m k := by
  rw [← h, BitVec.ofNat_toNat, BitVec.setWidth_eq]

/-- A port word that decodes is its instruction's word. Only an ON_FRAME keeps the payload. The cases are the arms of
`decodePort`: POP, POLL and GET_ADDRESS, then ON_FRAME, then the last selector, then those with any operand. -/
theorem encode_of_decodePort {w : PortWord} {payload : Option Frame} {i : Instr}
    (h : decodePort w payload = .ok i) :
    ∃ q, encode i = .port w q ∧ (payload = none → q = none) := by
  obtain ⟨sel, opd, rfl⟩ := portWord_append w
  simp only [decodePort, BitVec.extractLsb'_append_eq_left, BitVec.extractLsb'_append_eq_right] at h
  split at h
  case h_3 hsel | h_4 hsel | h_8 hsel =>
    obtain ⟨rfl, rfl⟩ := Machine.withZeroOperand_ok.1 h
    obtain rfl := eq_ofNat_of_toNat_eq hsel
    exact ⟨none, rfl, fun _ => rfl⟩
  case h_5 hsel =>
    obtain ⟨rfl, rfl⟩ := Machine.withZeroOperand_ok.1 h
    obtain rfl := eq_ofNat_of_toNat_eq hsel
    exact ⟨payload, rfl, id⟩
  case h_16 =>
    cases h
    have hlt := sel.isLt
    have hsel : sel.toNat = 15 := by simp only [imp_false] at *; omega
    obtain rfl := eq_ofNat_of_toNat_eq hsel
    exact ⟨none, rfl, fun _ => rfl⟩
  all_goals
    cases h
    rename_i hsel
    obtain rfl := eq_ofNat_of_toNat_eq hsel
    exact ⟨none, rfl, fun _ => rfl⟩

/-! ## The selector of a port word -/

/-- The selector of a port word (R89). -/
abbrev selectorOf (w : PortWord) : Nat := (w.extractLsb' 8 4).toNat

/-- The operand of a port word (R89). -/
abbrev operandOf (w : PortWord) : Byte := w.extractLsb' 0 8

/-- The word's operand must be 0 (R90): POP, POLL, ON_FRAME, GET_ADDRESS. -/
abbrev TakesNoOperand (w : PortWord) : Prop :=
  selectorOf w = 2 ∨ selectorOf w = 3 ∨ selectorOf w = 4 ∨ selectorOf w = 7

/-- The transaction of each selector (R89); a reserved one is none (R90). -/
def selectorTxn : Nat → Option Machine.Txn
  | 1 => some .push
  | 2 => some .pop
  | 3 => some .poll
  | 4 => some .onFrame
  | 5 => some .init
  | 6 => some .setAddress
  | 7 => some .getAddress
  | _ => none

/-- A PORT instruction's transaction is the one its word's selector names. -/
theorem txnOf_of_encode {w : PortWord} {i : Instr} {q : Option Frame} (h : encode i = .port w q) :
    Machine.txnOf i = selectorTxn (selectorOf w) := by
  cases i <;> cases h
  all_goals
    rw [selectorOf, BitVec.extractLsb'_append_eq_left]
    rfl

theorem withZeroOperand_error {opd : Byte} {i : Instr} {e : DecodeError} :
    withZeroOperand opd i = .error e ↔ opd ≠ 0#8 ∧ e = .nonzeroOperand := by
  unfold withZeroOperand
  split_ifs with h <;> simp [h, eq_comm]

/-- The one reason for which a port word does not decode (R90). -/
theorem decodePort_error_iff {w : PortWord} {payload : Option Frame} {e : DecodeError} :
    decodePort w payload = .error e ↔ e = .nonzeroOperand ∧ TakesNoOperand w ∧ operandOf w ≠ 0#8 := by
  constructor
  · intro h
    unfold decodePort at h
    simp only at h
    split at h
    case h_3 hsel | h_4 hsel | h_5 hsel | h_8 hsel =>
      obtain ⟨hopd, he⟩ := withZeroOperand_error.1 h
      exact ⟨he, by simp [TakesNoOperand, selectorOf, hsel], hopd⟩
    all_goals cases h
  · rintro ⟨rfl, hsel, hopd⟩
    rcases hsel with hsel | hsel | hsel | hsel
    all_goals
      unfold decodePort
      simp only [hsel]
      exact withZeroOperand_error.2 ⟨hopd, rfl⟩

end Sys2Proof
end

section
/-! SUPPORT. The rows of the opcode table that words match (30_encoding.md R82, R86, R89). -/

namespace Sys2Proof.Laws

/-- Every instruction's words match its own row of the table, and no other. -/
theorem TableRow.statement (i : Instr) : TableRow.Statement i :=
  match i with
  | .reservedInvalid00 addr n rest => TableRow.reservedInvalid00 addr n rest
  | .setBlinkMask addr n rest => TableRow.setBlinkMask addr n rest
  | .setBlinkSpeed addr n rest => TableRow.setBlinkSpeed addr n rest
  | .setContrastA addr n rest => TableRow.setContrastA addr n rest
  | .setContrastB addr n rest => TableRow.setContrastB addr n rest
  | .printString addr n rest => TableRow.printString addr n rest
  | .setScrollSpeed addr n rest => TableRow.setScrollSpeed addr n rest
  | .saveSettings addr n rest => TableRow.saveSettings addr n rest
  | .addTempFont addr n rest => TableRow.addTempFont addr n rest
  | .setHighlight addr n rest => TableRow.setHighlight addr n rest
  | .setContrastTable addr n rest => TableRow.setContrastTable addr n rest
  | .unassigned0B addr n rest => TableRow.unassigned0B addr n rest
  | .unassigned0C0F addr x n rest => TableRow.unassigned0C0F addr x n rest
  | .unassigned101F addr x n rest => TableRow.unassigned101F addr x n rest
  | .unassigned203F addr x n rest => TableRow.unassigned203F addr x n rest
  | .unassigned407F addr x n rest => TableRow.unassigned407F addr x n rest
  | .unassigned809F addr x n rest => TableRow.unassigned809F addr x n rest
  | .setDeviceAddress addr n rest => TableRow.setDeviceAddress addr n rest
  | .unassignedA1 addr n rest => TableRow.unassignedA1 addr n rest
  | .unassignedA2A3 addr x n rest => TableRow.unassignedA2A3 addr x n rest
  | .unassignedA4A7 addr x n rest => TableRow.unassignedA4A7 addr x n rest
  | .unassignedA8AF addr x n rest => TableRow.unassignedA8AF addr x n rest
  | .unassignedB0BF addr x n rest => TableRow.unassignedB0BF addr x n rest
  | .unassignedC0DF addr x n rest => TableRow.unassignedC0DF addr x n rest
  | .unassignedE0EF addr x n rest => TableRow.unassignedE0EF addr x n rest
  | .unassignedF0F7 addr x n rest => TableRow.unassignedF0F7 addr x n rest
  | .unassignedF8FB addr x n rest => TableRow.unassignedF8FB addr x n rest
  | .unassignedFCFD addr x n rest => TableRow.unassignedFCFD addr x n rest
  | .hello addr n rest => TableRow.hello addr n rest
  | .system addr n rest => TableRow.system addr n rest
  | .push b => TableRow.push b
  | .pop => TableRow.pop
  | .poll => TableRow.poll
  | .onFrame payload => TableRow.onFrame payload
  | .init a => TableRow.init a
  | .setAddress v => TableRow.setAddress v
  | .getAddress => TableRow.getAddress
  | .portReserved0 opd => TableRow.portReserved0 opd
  | .portReserved8 opd => TableRow.portReserved8 opd
  | .portReserved9 opd => TableRow.portReserved9 opd
  | .portReservedA opd => TableRow.portReservedA opd
  | .portReservedB opd => TableRow.portReservedB opd
  | .portReservedC opd => TableRow.portReservedC opd
  | .portReservedD opd => TableRow.portReservedD opd
  | .portReservedE opd => TableRow.portReservedE opd
  | .portReservedF opd => TableRow.portReservedF opd

theorem matching_of_encode {ws : Words} {i : Instr} (h : encode i = ws) :
    TableRow.matching ws = [mnemonicOf i] :=
  h ▸ TableRow.statement i

/-- The rows of POP, POLL, ON_FRAME and GET_ADDRESS ask for the operand 0, and no other row has their selectors
(R90). -/
theorem portRows_nonzeroOperand {w : PortWord} (hsel : TakesNoOperand w) (hopd : operandOf w ≠ 0#8) :
    portRows.filter (·.matches w.toNat) = [] := by
  obtain ⟨sel, opd, rfl⟩ := portWord_append w
  rw [operandOf, BitVec.extractLsb'_append_eq_right] at hopd
  rw [TakesNoOperand, selectorOf, BitVec.extractLsb'_append_eq_left] at hsel
  have hrows : ∀ k ∈ [2, 3, 4, 7], ∀ v : Byte, v ≠ 0#8 →
      portRows.filter (·.matches (BitVec.ofNat 4 k ++ v).toNat) = [] := by decide
  rw [eq_ofNat_of_toNat_eq (x := sel) rfl]
  exact hrows _ (by simpa using hsel) opd hopd

end Sys2Proof.Laws
end

section
/-! SUPPORT. What a frame, a reserved word and an ill-formed word do at the ports, and what a placed word runs
(30_encoding.md R89 to R91; 60_exceptions.md R255, R262; 70_reset_and_hazards.md R281). -/

namespace Sys2Proof.Machine

/-! ## Frames -/

theorem frameOf_of_decode {f : Frame} {i : Instr} (h : decode (.frame f) = .ok i) : frameOf i = some f := by
  rw [frameOf, encode_of_decodeFrame h]

/-- A frame whose command has the effect of its code's table entry is handled as the dispatcher handles it. -/
theorem onFrameOf_runEntry {cmd : Byte} {en : Entry} (h : cmdTable cmd = en) (addr n : Byte) (rest : Frame)
    (s : State) :
    onFrameOf addr n rest (runEntry en) s =
      s.afterInit (.next ((s.onFrame (some (addr :: cmd :: n :: rest))).returning .nothing)) := by
  rw [← h]
  rfl

/-- The meaning of a frame is ON_FRAME's with that frame, after INIT (42_dispatcher.md R150): the code's table
entry runs the command's own effect, and a block of unassigned codes has none. -/
theorem exec_of_frameOf {i : Instr} {f : Frame} (h : frameOf i = some f) (s : State) :
    exec i s = s.afterInit (.next ((s.onFrame (some f)).returning .nothing)) := by
  cases i <;> cases h
  case unassigned0C0F addr x n rest | unassigned101F addr x n rest | unassigned203F addr x n rest |
      unassigned407F addr x n rest | unassigned809F addr x n rest | unassignedA2A3 addr x n rest |
      unassignedA4A7 addr x n rest | unassignedA8AF addr x n rest | unassignedB0BF addr x n rest |
      unassignedC0DF addr x n rest | unassignedE0EF addr x n rest | unassignedF0F7 addr x n rest |
      unassignedF8FB addr x n rest | unassignedFCFD addr x n rest =>
    refine onFrameOf_runEntry (en := .absent) ?_ addr n rest s
    revert x
    decide
  all_goals rfl

theorem txnOf_of_frameOf {i : Instr} {f : Frame} (h : frameOf i = some f) : txnOf i = some .onFrame := by
  cases i <;> cases h
  all_goals rfl

/-- Between POLLs, the port's ON_FRAME is the meaning of the frame. -/
theorem execOnFrame_eq_exec {i : Instr} {f : Frame} {s : State} (h : frameOf i = some f)
    (hidle : s.cstate = .idle) : execOnFrame (some f) s = exec i s := by
  rw [exec_of_frameOf h]
  simp [execOnFrame, State.consumerMay, State.pollContext, hidle, contextAllows, whenAllowed]

/-! ## Port words -/

/-- The selectors 0x0 and 0x8 to 0xF are reserved (R90). -/
theorem selectorTxn_reserved {k : Nat} (h : k = 0 ∨ 8 ≤ k) : selectorTxn k = none := by
  rcases h with rfl | h
  · rfl
  · obtain ⟨j, rfl⟩ := Nat.exists_eq_add_of_le' h
    rfl

/-- The selectors 0x2 to 0x7 are the consumer's alone (R90, R255). -/
theorem selectorTxn_consumer {k : Nat} (h₁ : 2 ≤ k) (h₂ : k ≤ 7) :
    ∃ x, selectorTxn k = some x ∧ agentMay .producer x = false := by
  interval_cases k
  all_goals exact ⟨_, rfl, rfl⟩

/-- A reserved word's meaning is its refusal. -/
theorem exec_reserved {i : Instr} (h : txnOf i = none) (s : State) :
    exec i s = .refused .reservedSelector := by
  cases i <;> cases h
  all_goals rfl

theorem txnOf_of_decodePort {w : PortWord} {payload : Option Frame} {i : Instr}
    (h : decodePort w payload = .ok i) : txnOf i = selectorTxn (selectorOf w) := by
  obtain ⟨q, hq, -⟩ := encode_of_decodePort h
  exact txnOf_of_encode hq

/-- A port word of the producer or the consumer at the head of the order is what the step serves. -/
theorem step_port {s : State} {who : Issuer} {w : PortWord} {payload : Option Frame} {rest : List Request}
    (hwho : who = .producer ∨ who = .consumer)
    (hpend : s.pending = { issuer := who, body := .port w payload } :: rest) :
    step s = servePort who w payload { s with pending := rest } := by
  rcases hwho with rfl | rfl
  · simp [step, hpend, serve, serveBody]
  · simp [step, hpend, serve, serveBody]

theorem servePort_nonzeroOperand (who : Issuer) {w : PortWord} (payload : Option Frame) (s : State)
    (hsel : TakesNoOperand w) (hopd : operandOf w ≠ 0#8) :
    servePort who w payload s = .refused .nonzeroOperand := by
  rw [servePort, decodePort_error_iff.2 ⟨rfl, hsel, hopd⟩]

/-- A word whose operand is as R90 asks decodes to its selector's transaction, which is run for an agent that may
issue it. -/
theorem servePort_decoded (who : Issuer) {w : PortWord} {payload : Option Frame}
    (hopd : TakesNoOperand w → operandOf w = 0#8) :
    ∃ i, txnOf i = selectorTxn (selectorOf w) ∧
      ∀ s, servePort who w payload s = whenAllowed (mayIssue who i) (exec i s) := by
  cases hd : decodePort w payload with
  | error e =>
    obtain ⟨-, hsel, hne⟩ := decodePort_error_iff.1 hd
    exact absurd (hopd hsel) hne
  | ok i => exact ⟨i, txnOf_of_decodePort hd, fun s => by rw [servePort, hd]⟩

theorem servePort_reserved (who : Issuer) {w : PortWord} (payload : Option Frame) (s : State)
    (h : selectorTxn (selectorOf w) = none) : servePort who w payload s = .refused .reservedSelector := by
  have hopd : TakesNoOperand w → operandOf w = 0#8 := by
    rintro (hsel | hsel | hsel | hsel) <;> rw [hsel] at h <;> cases h
  obtain ⟨i, hi, hserve⟩ := servePort_decoded who (payload := payload) hopd
  rw [h] at hi
  rw [hserve, exec_reserved hi]
  simp [mayIssue, hi, whenAllowed]

theorem servePort_wrongAgent {who : Issuer} {w : PortWord} {x : Txn} (payload : Option Frame) (s : State)
    (hopd : TakesNoOperand w → operandOf w = 0#8) (hx : selectorTxn (selectorOf w) = some x)
    (hmay : agentMay who x = false) : servePort who w payload s = .refused .wrongContext := by
  obtain ⟨i, hi, hserve⟩ := servePort_decoded who (payload := payload) hopd
  rw [hx] at hi
  rw [hserve]
  simp [mayIssue, hi, hmay, whenAllowed]

/-! ## A placed word -/

theorem requestOf_port (w : PortWord) (payload : Option Frame) :
    requestOf (.port w payload) =
      { issuer := if w.extractLsb' 8 4 = 0x1#4 then .producer else .consumer, body := .port w payload } := by
  simp only [requestOf]
  split_ifs
  · rfl
  · rfl

theorem requestOf_issuer (ws : Words) :
    (requestOf ws).issuer = .producer ∨ (requestOf ws).issuer = .consumer := by
  cases ws with
  | frame f => exact .inr rfl
  | port w payload =>
    rw [requestOf_port]
    split_ifs
    · exact .inl rfl
    · exact .inr rfl

/-- The agent that a word is placed for may issue it. -/
theorem mayIssue_requestOf {w : PortWord} {payload : Option Frame} {i : Instr}
    (h : decodePort w payload = .ok i) : mayIssue (requestOf (.port w payload)).issuer i = true := by
  simp only [requestOf_port, mayIssue, txnOf_of_decodePort h, selectorOf]
  generalize w.extractLsb' 8 4 = sel
  revert sel
  decide

/-- The step that takes a placed word runs its instruction. A frame is taken between POLLs. -/
theorem step_requestOf {ws : Words} {i : Instr} {s : State} (h : decode ws = .ok i)
    (hidle : txnOf i = some .onFrame → s.cstate = .idle) :
    step { s with pending := requestOf ws :: s.pending } = exec i s := by
  cases ws with
  | frame f =>
    have hf : frameOf i = some f := frameOf_of_decode h
    have htk : Takes { s with pending := requestOf (.frame f) :: s.pending } .consumer
        (.onFrame (some f)) s.pending := ⟨0x400#12, some f, rfl, rfl⟩
    rw [step_takes htk (.inr rfl) rfl]
    exact execOnFrame_eq_exec hf (hidle (txnOf_of_frameOf hf))
  | port w payload =>
    have htk : Takes { s with pending := requestOf (.port w payload) :: s.pending }
        (requestOf (.port w payload)).issuer i s.pending := ⟨w, payload, by rw [requestOf_port], h⟩
    rw [step_takes htk (requestOf_issuer _) (mayIssue_requestOf h)]

/-- A word needs INIT when it is a transaction other than INIT (10_state.md R31). -/
theorem needsInit_of_decode {ws : Words} {i : Instr} (h : decode ws = .ok i) :
    needsInit ws = true ↔ ∃ x, txnOf i = some x ∧ x ≠ .init := by
  rw [needsInit, h]
  cases hx : txnOf i <;> simp [hx]

/-- The step that takes words placed by `withWords` runs their instruction on the machine that was set up for it,
`t`. -/
theorem step_withWords {ws : Words} {i : Instr} {s t : State} (h : decode ws = .ok i)
    (ht : (if needsInit ws then s.booted else s) = t) (hidle : txnOf i = some .onFrame → t.cstate = .idle) :
    step (s.withWords ws) = exec i t := by
  subst ht
  exact step_requestOf h hidle

theorem booted_of_initDone {s : State} (h : s.initDone = true) : s.booted = s := by
  simp [State.booted, h]

theorem booted_of_not_initDone {s : State} (h : s.initDone = false) :
    s.booted = s.initialised s.par.cfgInitAddr := by
  simp [State.booted, h]

theorem decodeTableWord_eq_some {nbits w : Nat} {i : Instr} (h : decodeTableWord nbits w = some i) :
    ∃ ws, tableWords nbits w = some ws ∧ decode ws = .ok i := by
  unfold decodeTableWord at h
  split at h
  · cases h
  · split at h
    · cases h
      exact ⟨_, ‹_›, ‹_›⟩
    · cases h

theorem withFetchWord_eq {nbits w : Nat} {ws : Words} (h : tableWords nbits w = some ws) (s : State) :
    s.withFetchWord nbits w = s.withWords ws := by
  rw [State.withFetchWord, h]

end Sys2Proof.Machine
end

section
/-! The statements of the family 30_encoding. -/

namespace Sys2Proof.Machine

/-- Settles O2, by `decode_encode`. -/
theorem decodeEncodeGivesTheInstructionBack : Obligations.DecodeEncodeGivesTheInstructionBack :=
  decode_encode

/-- Settles O3, by what encoding a decoded frame and a decoded port word gives. -/
theorem encodeDecodeGivesTheWordsBack : Obligations.EncodeDecodeGivesTheWordsBack := by
  refine ⟨fun f hf => ?_, fun f hf => decodeFrame_short hf, fun w i h => ?_⟩
  · obtain ⟨i, hi⟩ := decodeFrame_of_length hf
    exact ⟨i, hi, encode_of_decodeFrame hi⟩
  · obtain ⟨q, hq, hnone⟩ := encode_of_decodePort h
    rw [hq, hnone rfl]

/-- Settles O4: the header is that of the decoded instruction's words, which match its row alone. -/
theorem everyCommandCodeIsOneTableRow : Obligations.EveryCommandCodeIsOneTableRow :=
  fun addr cmd n rest => Laws.matching_of_encode (encode_decodeCommand addr cmd n rest)

/-- Settles O5: a word that decodes is its instruction's word, which matches its row alone. -/
theorem portWordsMatchTheTable : Obligations.PortWordsMatchTheTable := by
  refine fun w payload => ⟨fun i h => ?_, fun e h => ?_⟩
  · obtain ⟨q, hq, -⟩ := encode_of_decodePort h
    exact Laws.matching_of_encode hq
  · obtain ⟨he, hsel, hopd⟩ := decodePort_error_iff.1 h
    exact ⟨he, Laws.portRows_nonzeroOperand hsel hopd⟩

/-- Settles O47: the step runs ON_FRAME with the payload, which between POLLs is the frame's meaning. -/
theorem aStepRunsTheDeliveredFrame : Obligations.AStepRunsTheDeliveredFrame := by
  intro s f i rest hidle hpend hdec
  have htk : Takes s .consumer (.onFrame (some f)) rest := ⟨0x400, some f, hpend, rfl⟩
  rw [step_takes htk (.inr rfl) rfl]
  exact execOnFrame_eq_exec (s := { s with pending := rest }) (frameOf_of_decode hdec) hidle

/-- Settles O50, by the selector's transaction: none, one with an operand that must be 0, or one of the other
agent. -/
theorem reservedAndIllFormedWordsAreRefused : Obligations.ReservedAndIllFormedWordsAreRefused := by
  intro s who w payload rest hwho hpend op opd takesNone
  rw [step_port hwho hpend]
  refine ⟨fun hop => servePort_reserved who payload _ (selectorTxn_reserved hop),
    servePort_nonzeroOperand who payload _, ?_, ?_, ?_⟩
  · rintro (hop : selectorOf w = 1) rfl
    exact servePort_wrongAgent payload _ (fun hnone => absurd hnone (by omega)) (congrArg selectorTxn hop) rfl
  · rintro (hop : TakesNoOperand w) hopd rfl
    obtain ⟨x, hx, hmay⟩ := selectorTxn_consumer (k := selectorOf w) (by omega) (by omega)
    exact servePort_wrongAgent payload _ (fun _ => hopd) hx hmay
  · rintro (hop : selectorOf w = 5 ∨ selectorOf w = 6) rfl
    obtain ⟨x, hx, hmay⟩ := selectorTxn_consumer (k := selectorOf w) (by omega) (by omega)
    exact servePort_wrongAgent payload _ (fun hnone => absurd hnone (by omega)) hx hmay

/-- Settles O48: the word's instruction needs a set-up machine or not, and the machine is set up or not. -/
theorem aFetchedTableWordIsWhatRuns : Obligations.AFetchedTableWordIsWhatRuns := by
  intro s nbits w i h
  obtain ⟨ws, hws, hdec⟩ := decodeTableWord_eq_some h
  rw [withFetchWord_eq hws]
  refine ⟨fun hd hidle => ?_, fun hd hx => ?_, fun x hd hx hne => ?_⟩
  · exact step_withWords hdec (by rw [booted_of_initDone hd, ite_self]) fun _ => hidle
  · have hneeds : ¬ needsInit ws = true := by
      rw [needsInit_of_decode hdec]
      rintro ⟨x, hx', hne⟩
      rcases hx with hx | hx <;> rw [hx] at hx' <;> cases hx'
      exact hne rfl
    refine step_withWords hdec (if_neg hneeds) fun hf => ?_
    rcases hx with hx | hx <;> rw [hx] at hf <;> cases hf
  · have hneeds : needsInit ws = true := (needsInit_of_decode hdec).2 ⟨x, hx, hne⟩
    exact step_withWords hdec (by rw [if_pos hneeds, booted_of_not_initDone hd]) fun _ => rfl

/-- Settles O1: these are the words of the instructions they say they are. -/
theorem decodeReadsTheSpecsWords : Obligations.DecodeReadsTheSpecsWords :=
  ⟨rfl, rfl, rfl, rfl, rfl, rfl, rfl, rfl, rfl, rfl, rfl, rfl, rfl, rfl, rfl⟩

/-- Settles O49, by `exec_reserved`. -/
theorem reservedSelectorsAreRefused : Obligations.ReservedSelectorsAreRefused := fun _ s =>
  ⟨exec_reserved rfl s, exec_reserved rfl s, exec_reserved rfl s, exec_reserved rfl s, exec_reserved rfl s,
    exec_reserved rfl s, exec_reserved rfl s, exec_reserved rfl s, exec_reserved rfl s⟩

end Sys2Proof.Machine
end

section
/-! SUPPORT. The next state of a PUSH and of a POP in a sound state, and what each does to `Q`
(40_byte_queue.md R110 to R113, R117). -/

namespace Sys2Proof.Machine

/-! ## PUSH -/

/-- What a PUSH leaves (R110): the byte dropped and the overflow noted, or the byte written at WR. -/
def State.pushed (s : State) (b : Byte) : State :=
  if s.cnt = s.par.qcap then (s.note .queueOverflow).returning (.accepted false)
  else
    { s with
      qmem := s.qmem.write s.wr b
      wr   := (s.wr + 1) % s.par.qcap
      cnt  := s.cnt + 1
      ret  := .accepted true }

theorem State.pushed_full {s : State} (b : Byte) (h : s.cnt = s.par.qcap) :
    s.pushed b = { s with diag := s.diag ++ [.queueOverflow], ret := .accepted false } :=
  if_pos h

theorem State.pushed_room {s : State} (b : Byte) (h : s.cnt ≠ s.par.qcap) :
    s.pushed b = { s with
      qmem := s.qmem.write s.wr b, wr := (s.wr + 1) % s.par.qcap, cnt := s.cnt + 1, ret := .accepted true } :=
  if_neg h

@[simp] theorem State.pushed_par (s : State) (b : Byte) : (s.pushed b).par = s.par := by
  unfold State.pushed; split_ifs <;> rfl
@[simp] theorem State.pushed_initDone (s : State) (b : Byte) : (s.pushed b).initDone = s.initDone := by
  unfold State.pushed; split_ifs <;> rfl
@[simp] theorem State.pushed_cstate (s : State) (b : Byte) : (s.pushed b).cstate = s.cstate := by
  unfold State.pushed; split_ifs <;> rfl
@[simp] theorem State.pushed_pending (s : State) (b : Byte) : (s.pushed b).pending = s.pending := by
  unfold State.pushed; split_ifs <;> rfl

/-- PUSH's body accepts the byte where the FIFO has room and the cell at WR exists. -/
theorem State.pushByte_room {s : State} (b : Byte) (h : s.cnt ≠ s.par.qcap) (hwr : s.wr < s.par.qcap) :
    s.pushByte b = .ok (true, { s with
      qmem := s.qmem.write s.wr b, wr := (s.wr + 1) % s.par.qcap, cnt := s.cnt + 1 }) := by
  simp [State.pushByte, State.cellExists, h, hwr]

/-- After INIT a PUSH completes, unless it would write outside QMEM. -/
theorem exec_push {s : State} (b : Byte) (hd : s.initDone = true)
    (hwr : s.cnt ≠ s.par.qcap → s.wr < s.par.qcap) : exec (.push b) s = .next (s.pushed b) := by
  by_cases h : s.cnt = s.par.qcap
  · rw [State.pushed_full b h]
    exact execPush_next.2 ⟨hd, false, s.note .queueOverflow, if_pos h, rfl⟩
  · rw [State.pushed_room b h]
    exact execPush_next.2 ⟨hd, true, _, State.pushByte_room b h (hwr h), rfl⟩

/-- A PUSH appends its byte to `Q`, whose first QCAP bytes stay. -/
theorem State.pushed_queue {s : State} (b : Byte) (hi : FifoInv s) :
    (s.pushed b).queue = (s.queue ++ [b]).take s.par.qcap := by
  have hlen := State.queue_length hi
  by_cases h : s.cnt = s.par.qcap
  · rw [State.pushed_full b h, List.take_left' (hlen.trans h)]
    rfl
  · have ⟨_, hwr, _⟩ := hi
    obtain ⟨hqueue, hlt⟩ := State.pushByte_queue hi (State.pushByte_room b h hwr)
    rw [State.pushed_room b h, List.take_of_length_le (by simp; omega), ← hqueue]
    rfl

theorem State.pushed_ret {s : State} (b : Byte) (hi : FifoInv s) :
    (s.pushed b).ret = .accepted (decide (s.queue.length < s.par.qcap)) := by
  have ⟨_, _, hle, _⟩ := hi
  rw [State.queue_length hi]
  by_cases h : s.cnt = s.par.qcap
  · rw [State.pushed_full b h, decide_eq_false (by omega)]
  · rw [State.pushed_room b h, decide_eq_true (by omega)]

theorem State.pushed_diag {s : State} (b : Byte) (hi : FifoInv s) :
    (s.pushed b).diag = s.diag ++ List.replicate (s.queue.length + 1 - s.par.qcap) .queueOverflow := by
  have ⟨_, _, hle, _⟩ := hi
  rw [State.queue_length hi]
  by_cases h : s.cnt = s.par.qcap
  · rw [State.pushed_full b h, show s.cnt + 1 - s.par.qcap = 1 by omega]
    rfl
  · rw [State.pushed_room b h, show s.cnt + 1 - s.par.qcap = 0 by omega]
    exact (List.append_nil _).symm

/-! ## POP -/

/-- What a POP leaves in a sound state (R111): the oldest byte handed back and removed, or nothing. -/
def State.popped (s : State) : State :=
  if s.cnt = 0 then s.returning (.popped none)
  else { s with rd := (s.rd + 1) % s.par.qcap, cnt := s.cnt - 1, ret := .popped s.queue.head? }

theorem State.popped_empty {s : State} (h : s.cnt = 0) : s.popped = { s with ret := .popped none } :=
  if_pos h

theorem State.popped_nonempty {s : State} (h : s.cnt ≠ 0) :
    s.popped = { s with
      rd := (s.rd + 1) % s.par.qcap, cnt := s.cnt - 1, ret := .popped s.queue.head? } :=
  if_neg h

@[simp] theorem State.popped_par (s : State) : s.popped.par = s.par := by
  unfold State.popped; split_ifs <;> rfl
@[simp] theorem State.popped_initDone (s : State) : s.popped.initDone = s.initDone := by
  unfold State.popped; split_ifs <;> rfl
@[simp] theorem State.popped_cstate (s : State) : s.popped.cstate = s.cstate := by
  unfold State.popped; split_ifs <;> rfl
@[simp] theorem State.popped_pending (s : State) : s.popped.pending = s.pending := by
  unfold State.popped; split_ifs <;> rfl

theorem State.popped_ret (s : State) : s.popped.ret = .popped s.queue.head? := by
  by_cases h : s.cnt = 0
  · rw [State.popped_empty h, State.queue_of_cnt_zero h]
    rfl
  · rw [State.popped_nonempty h]

/-- A transaction of the consumer that R255 has no place for inside a POLL is refused there. -/
theorem State.consumerMay_polling_refused {s : State} {x : Txn} (hd : s.initDone = true)
    (hpoll : s.cstate = .polling) (hx : contextAllows x .pollPolling = false) (k : Out) :
    s.consumerMay x k = .refused .wrongContext := by
  simp [State.consumerMay, State.afterInit, hd, State.pollContext, hpoll, hx, whenAllowed]

theorem execPop_empty {s : State} (hd : s.initDone = true) (hidle : s.cstate = .idle) (h : s.cnt = 0) :
    execPop s = .next { s with ret := .popped none } :=
  execPop_next.2 ⟨hd, hidle, none, s, if_pos h, rfl⟩

/-- POP's body on a sound FIFO that is not empty removes the oldest byte. -/
theorem State.popByte_nonempty {s : State} (hi : FifoInv s) (h : s.cnt ≠ 0) :
    s.popByte = .ok (s.queue.head?, { s with rd := (s.rd + 1) % s.par.qcap, cnt := s.cnt - 1 }) := by
  have ⟨hrd, _⟩ := hi
  obtain ⟨r, u, hpop⟩ := State.popByte_ok hrd
  obtain ⟨hdraws, -⟩ := State.popByte_queue_cases hi hpop
  rcases State.popByte_cases hpop with ⟨hz, -⟩ | ⟨-, -, x, rfl, ⟨-, rfl⟩ | ⟨-, -, rfl⟩⟩
  · exact absurd hz h
  · obtain ⟨hqueue, -⟩ := State.popByte_queue hi hpop
    rw [hpop, hqueue]
    rfl
  · exact absurd hdraws (Nat.succ_ne_self _)

/-- Between POLLs a POP completes. -/
theorem exec_pop {s : State} (hi : FifoInv s) (hd : s.initDone = true) (hidle : s.cstate = .idle) :
    exec .pop s = .next s.popped := by
  by_cases h : s.cnt = 0
  · rw [State.popped_empty h]
    exact execPop_empty hd hidle h
  · rw [State.popped_nonempty h]
    exact execPop_next.2 ⟨hd, hidle, _, _, State.popByte_nonempty hi h, rfl⟩

/-- A POP removes the oldest byte of `Q`. -/
theorem State.popped_queue {s : State} (hi : FifoInv s) : s.popped.queue = s.queue.tail := by
  by_cases h : s.cnt = 0
  · rw [State.popped_empty h]
    show s.queue = s.queue.tail
    rw [State.queue_of_cnt_zero h]
    rfl
  · obtain ⟨-, ⟨hnil, -⟩ | ⟨b, hqueue, -⟩⟩ :=
      State.popByte_queue_cases hi (State.popByte_nonempty hi h)
    · exact absurd ((State.queue_length hi).symm.trans (congrArg List.length hnil)) h
    · rw [State.popped_nonempty h]
      exact (congrArg List.tail hqueue).symm

/-! ## What both keep -/

theorem fifoInv_of_inv {s : State} (hi : Inv s) (hd : s.initDone = true) : FifoInv s := by
  obtain ⟨-, -, -, hfifo⟩ := hi
  exact hfifo hd

theorem State.pushed_inv {s : State} (b : Byte) (hi : Inv s) (hd : s.initDone = true) : Inv (s.pushed b) := by
  obtain ⟨-, hwr, -⟩ := fifoInv_of_inv hi hd
  by_cases h : s.cnt = s.par.qcap
  · rw [State.pushed_full b h]
    exact hi
  · rw [State.pushed_room b h]
    have hu := State.pushByte_inv hi hd (State.pushByte_room b h hwr)
    exact hu

theorem State.popped_inv {s : State} (hi : Inv s) (hd : s.initDone = true) : Inv s.popped := by
  by_cases h : s.cnt = 0
  · rw [State.popped_empty h]
    exact hi
  · rw [State.popped_nonempty h]
    have hu := State.popByte_inv hi hd (State.popByte_nonempty (fifoInv_of_inv hi hd) h)
    exact hu

/-- A PUSH reads and writes no pending request. -/
theorem State.pushed_withPending (s : State) (b : Byte) (rs : List Request) :
    { s.pushed b with pending := rs } = { s with pending := rs }.pushed b := by
  unfold State.pushed; split_ifs <;> rfl

/-- A POP reads and writes no pending request. -/
theorem State.popped_withPending (s : State) (rs : List Request) :
    { s.popped with pending := rs } = { s with pending := rs }.popped := by
  unfold State.popped; split_ifs <;> rfl

/-- Between the edges the order of a PUSH and a POP makes no difference, the last result apart (R116). -/
theorem State.pushed_popped_comm {s : State} (b : Byte) (hpos : 0 < s.cnt) (hroom : s.cnt < s.par.qcap) :
    { (s.pushed b).popped with ret := (s.popped.pushed b).ret } = s.popped.pushed b := by
  rw [State.pushed_room b (by omega), State.popped_nonempty (s := s) (by omega),
    State.popped_nonempty (Nat.succ_ne_zero _), State.pushed_room b (show s.cnt - 1 ≠ s.par.qcap by omega),
    Nat.sub_add_cancel hpos]
  rfl

end Sys2Proof.Machine
end

section
/-! SUPPORT. The steps that take a PUSH and a POP from a sound state, a PUSH and a POP one after the other, and runs
of PUSHes (40_byte_queue.md R116, R117; 20_memory.md R59). -/

namespace Sys2Proof.Machine

/-! ## The steps -/

theorem takes_push {s : State} {b : Byte} {rest : List Request}
    (hpend : s.pending = producerWord (0x1#4 ++ b) :: rest) : Takes s .producer (.push b) rest :=
  ⟨0x1#4 ++ b, none, hpend, decode_encode (.push b)⟩

/-- From a sound `s` after INIT a step that took one request led to `u`, as sound; `rest` are the requests after
it. -/
structure SoundStep (s : State) (rest : List Request) (u : State) : Prop where
  next     : step s = .next u
  inv      : Inv u
  initDone : u.initDone = true
  cstate   : u.cstate = s.cstate
  par      : u.par = s.par
  pending  : u.pending = rest

/-- The step took a PUSH of `b`. -/
structure PushStep (s : State) (b : Byte) (rest : List Request) (u : State) : Prop extends SoundStep s rest u where
  state : u = { s with pending := rest }.pushed b
  queue : u.queue = (s.queue ++ [b]).take s.par.qcap
  ret   : u.ret = .accepted (decide (s.queue.length < s.par.qcap))
  diag  : u.diag = s.diag ++ List.replicate (s.queue.length + 1 - s.par.qcap) .queueOverflow

/-- The step took a POP. -/
structure PopStep (s : State) (rest : List Request) (u : State) : Prop extends SoundStep s rest u where
  state : u = { s with pending := rest }.popped
  queue : u.queue = s.queue.tail
  ret   : u.ret = .popped s.queue.head?

theorem PushStep.accepts {s u : State} {b : Byte} {rest : List Request} (hu : PushStep s b rest u)
    (h : s.queue.length < s.par.qcap) : u.ret = .accepted true ∧ u.queue = s.queue ++ [b] := by
  rw [hu.ret, hu.queue, decide_eq_true h, List.take_of_length_le (by rwa [List.length_append])]
  exact ⟨rfl, rfl⟩

theorem PushStep.rejects {s u : State} {b : Byte} {rest : List Request} (hu : PushStep s b rest u)
    (h : s.queue.length = s.par.qcap) : u.ret = .accepted false ∧ u.queue = s.queue := by
  rw [hu.ret, hu.queue, decide_eq_false (by omega), List.take_left' h]
  exact ⟨rfl, rfl⟩

theorem step_push {s : State} {b : Byte} {rest : List Request} (hi : Inv s) (hd : s.initDone = true)
    (hpend : s.pending = producerWord (0x1#4 ++ b) :: rest) : ∃ u, PushStep s b rest u := by
  have hv : Inv { s with pending := rest } := hi
  have hfifo := fifoInv_of_inv hv hd
  have ⟨_, hwr, _⟩ := hfifo
  have hnext : step s = .next ({ s with pending := rest }.pushed b) := by
    rw [step_takes (takes_push hpend) (.inl rfl) rfl]
    exact exec_push b hd fun _ => hwr
  exact ⟨_, ⟨hnext, State.pushed_inv b hv hd, (State.pushed_initDone _ b).trans hd, State.pushed_cstate _ b,
    State.pushed_par _ b, State.pushed_pending _ b⟩, rfl, State.pushed_queue b hfifo, State.pushed_ret b hfifo,
    State.pushed_diag b hfifo⟩

theorem step_pop {s : State} {rest : List Request} (hi : Inv s) (hd : s.initDone = true)
    (hidle : s.cstate = .idle) (hpend : s.pending = consumerWord 0x200 none :: rest) : ∃ u, PopStep s rest u := by
  have hv : Inv { s with pending := rest } := hi
  have hfifo := fifoInv_of_inv hv hd
  have hnext : step s = .next { s with pending := rest }.popped := by
    rw [step_takes (i := .pop) ⟨0x200, none, hpend, rfl⟩ (.inr rfl) rfl]
    exact exec_pop hfifo hd hidle
  exact ⟨_, ⟨hnext, State.popped_inv hv hd, (State.popped_initDone _).trans hd, State.popped_cstate _,
    State.popped_par _, State.popped_pending _⟩, rfl, State.popped_queue hfifo, State.popped_ret _⟩

/-- After a POP the FIFO has room. -/
theorem PopStep.room {s u : State} {rest : List Request} (hu : PopStep s rest u) (hi : FifoInv s) :
    u.queue.length < u.par.qcap := by
  have ⟨_, _, hle, _⟩ := hi
  have hpos := Params.qcap_pos s.par
  rw [hu.queue, hu.par, List.length_tail, State.queue_length hi]
  omega

/-- Between the edges a POP and a PUSH, one after the other in either order, lead to the same state, the last result
apart (R116). -/
theorem popStep_pushStep_comm {s u t u' t' : State} {b : Byte} {rs ps rs' ps' rest : List Request}
    (hpos : 0 < s.cnt) (hroom : s.cnt < s.par.qcap)
    (hu : PopStep { s with pending := rs } ps u) (ht : PushStep u b rest t)
    (hu' : PushStep { s with pending := rs' } b ps' u') (ht' : PopStep u' rest t') :
    { t' with ret := t.ret } = t := by
  rw [ht'.state, hu'.state, ht.state, hu.state, State.pushed_withPending, State.popped_withPending]
  exact State.pushed_popped_comm (s := { s with pending := rest }) b hpos hroom

/-! ## Runs of PUSHes -/

theorem take_take_append {α : Type} (n : Nat) (l m : List α) : (l.take n ++ m).take n = (l ++ m).take n := by
  rw [List.take_append, List.take_append, List.take_take, List.length_take, Nat.min_self]
  congr 2
  omega

/-- The bytes pushed one after the other are appended to `Q`, whose first QCAP bytes stay; one overflow is noted
for each of the others (R117). -/
theorem run_pushes {s : State} {bs : List Byte} (hi : Inv s) (hd : s.initDone = true)
    (hpend : s.pending = bs.map fun b => producerWord (0x1#4 ++ b)) :
    ∃ t, Host.Core.run core bs.length s = .next t ∧ t.queue = (s.queue ++ bs).take s.par.qcap ∧
      t.diag = s.diag ++ List.replicate (s.queue.length + bs.length - s.par.qcap) .queueOverflow := by
  induction bs generalizing s with
  | nil =>
    obtain ⟨-, -, hle, -⟩ := fifoInv_of_inv hi hd
    have hlen := State.queue_length (fifoInv_of_inv hi hd)
    refine ⟨s, rfl, ?_, ?_⟩
    · rw [List.append_nil, List.take_of_length_le (by omega)]
    · rw [List.length_nil, show s.queue.length + 0 - s.par.qcap = 0 by omega]
      exact (List.append_nil _).symm
  | cons b bs ih =>
    obtain ⟨u, hu⟩ := step_push hi hd hpend
    obtain ⟨t, hrun, hqueue, hdiag⟩ := ih hu.inv hu.initDone hu.pending
    refine ⟨t, (core_run_succ _ hu.next).trans hrun, ?_, ?_⟩
    · rw [hqueue, hu.queue, hu.par, take_take_append, List.append_assoc]
      rfl
    · rw [hdiag, hu.diag, hu.queue, hu.par, List.append_assoc, List.replicate_append_replicate]
      congr 2
      simp only [List.length_take, List.length_append, List.length_cons, List.length_nil]
      omega

/-- Each of the bytes pushed one after the other is accepted exactly while `Q` has room (R117). -/
theorem run_pushes_ret {s : State} {bs : List Byte} {j : Nat} (hi : Inv s) (hd : s.initDone = true)
    (hpend : s.pending = bs.map fun b => producerWord (0x1#4 ++ b)) (hj : j < bs.length) :
    ∃ u, Host.Core.run core (j + 1) s = .next u ∧
      u.ret = .accepted (decide (s.queue.length + j < s.par.qcap)) := by
  induction bs generalizing s j with
  | nil => exact absurd hj (Nat.not_lt_zero j)
  | cons b bs ih =>
    obtain ⟨u, hu⟩ := step_push hi hd hpend
    rw [core_run_succ j hu.next]
    cases j with
    | zero => exact ⟨u, rfl, hu.ret⟩
    | succ j =>
      obtain ⟨t, hrun, hret⟩ := ih hu.inv hu.initDone hu.pending (Nat.lt_of_succ_lt_succ hj)
      refine ⟨t, hrun, ?_⟩
      rw [hret, hu.queue, hu.par]
      congr 2
      simp only [List.length_take, List.length_append, List.length_cons, List.length_nil, eq_iff_iff]
      omega

end Sys2Proof.Machine
end

section
/-! The statements of the family 40_byte_queue. -/

namespace Sys2Proof.Machine

/-- Settles O23: `Q` is empty at the start of the run of PUSHes. -/
theorem capacityLaw : Obligations.CapacityLaw := by
  intro s bs hi hd hcnt hpend
  have hnil := State.queue_of_cnt_zero hcnt
  refine ⟨fun j hj => ?_, ?_⟩
  · simpa [hnil] using run_pushes_ret hi hd hpend hj
  · simpa [hnil] using run_pushes hi hd hpend

/-- Settles O24. Each order is a run of two steps whose next states are known; what it answers and leaves is then a
fact about `Q`: full, empty, or between the edges. -/
theorem pushAndPopAtTheSameMoment : Obligations.PushAndPopAtTheSameMoment := by
  intro s b rest hi hd hidle
  obtain ⟨u, hu⟩ := step_pop
    (s := { s with pending := consumerWord 0x200 none :: producerWord (0x1#4 ++ b) :: rest }) hi hd hidle rfl
  obtain ⟨t, ht⟩ := step_push hu.inv hu.initDone hu.pending
  obtain ⟨u', hu'⟩ := step_push
    (s := { s with pending := producerWord (0x1#4 ++ b) :: consumerWord 0x200 none :: rest }) hi hd rfl
  obtain ⟨t', ht'⟩ := step_pop hu'.inv hu'.initDone (hu'.cstate.trans hidle) hu'.pending
  rw [core_run_one, core_run_one, hu.next, hu'.next]
  have hlen := State.queue_length (fifoInv_of_inv hi hd)
  have hur : u.ret = .popped s.queue.head? := hu.ret
  have huq : u.queue = s.queue.tail := hu.queue
  obtain ⟨htr, htq⟩ := ht.accepts (hu.room (fifoInv_of_inv hi hd))
  rw [huq] at htq
  have hempty : s.cnt = 0 → s.queue = [] := State.queue_of_cnt_zero
  -- On a full FIFO, POP first, the PUSH has room as after every POP.
  refine ⟨fun hfull => ⟨u, t, rfl, ht.next, htr, htq⟩, fun hfull => ?_, fun hz => ?_, fun hz => ?_,
    fun hpos hroom => ?_⟩
  · -- full, PUSH first
    obtain ⟨hur', huq'⟩ := hu'.rejects (hlen.trans hfull)
    exact ⟨u', t', rfl, hur', ht'.next, ht'.queue.trans (congrArg List.tail huq')⟩
  · -- empty, PUSH first
    obtain ⟨-, huq' : u'.queue = s.queue ++ [b]⟩ := hu'.accepts (hlen.trans_lt (hz ▸ Params.qcap_pos s.par))
    refine ⟨u', t', rfl, ht'.next, ?_, ?_⟩
    · rw [ht'.ret, huq', hempty hz]
      rfl
    · rw [ht'.queue, huq', hempty hz]
      rfl
  · -- empty, POP first
    refine ⟨u, t, rfl, ?_, ht.next, ?_⟩
    · rw [hur, hempty hz]
      rfl
    · rw [htq, hempty hz]
      rfl
  · -- between the edges
    obtain ⟨hur', huq' : u'.queue = s.queue ++ [b]⟩ := hu'.accepts (hlen.trans_lt hroom)
    obtain ⟨x, q, hq⟩ := List.exists_cons_of_length_pos (hlen ▸ hpos)
    refine ⟨x, u, t, u', t', rfl, ?_, ht.next, htr, rfl, hur', ht'.next, ?_, ?_, htq,
      popStep_pushStep_comm hpos hroom hu ht hu' ht'⟩
    · rw [hur, hq]
      rfl
    · rw [ht'.ret, huq', hq]
      rfl
    · rw [hq]
      rfl

/-- Settles O20, by the next state of PUSH. -/
theorem pushWritesTheByteOrDropsIt : Obligations.PushWritesTheByteOrDropsIt := by
  refine ⟨fun b s hd hfull => ?_, fun b s hd hroom hwr => ⟨s.qmem.write s.wr b, ?_,
    Memory.read?_write_same _ _ _, fun k hk => Memory.read?_write_other _ _ hk⟩,
    fun b s hd => State.afterInit_refused hd _⟩
  · rw [exec_push b hd (absurd hfull), State.pushed_full b hfull]
  · rw [exec_push b hd fun _ => hwr, State.pushed_room b hroom]

/-- Settles O21: POP's body finds the FIFO empty, or removes the byte at RD, a written one or a free value. -/
theorem popTakesTheOldestByte : Obligations.PopTakesTheOldestByte := by
  refine ⟨fun s => execPop_empty, fun s hd hidle hne hrd => ?_, fun s hd => State.afterInit_refused hd _,
    fun s hd hpoll => ?_⟩
  · obtain ⟨r, u, hpop⟩ := State.popByte_ok hrd
    have hexec : exec .pop s = .next (u.returning (.popped r)) := execPop_next.2 ⟨hd, hidle, r, u, hpop, rfl⟩
    rcases State.popByte_cases hpop with ⟨hz, -⟩ | ⟨-, -, b, rfl, ⟨hcell, rfl⟩ | ⟨hcell, -, rfl⟩⟩
    · exact absurd hz hne
    · exact ⟨b, s.freeDraws, hexec, fun c hc => ⟨Option.some.inj (hcell.symm.trans hc), rfl⟩⟩
    · exact ⟨b, s.freeDraws + 1, hexec, fun c hc => absurd (hcell.symm.trans hc) (Option.some_ne_none c).symm⟩
  · exact State.consumerMay_polling_refused hd hpoll rfl _

/-- Settles O52: the issuer is looked at before the body. -/
theorem aSecondProducerAndAReentrantHandlerAreRefused :
    Obligations.ASecondProducerAndAReentrantHandlerAreRefused := by
  refine fun s body rest => ⟨fun hpend => ?_, fun hpend => ?_⟩
  · simp [step, hpend, serve]
  · simp [step, hpend, serve]

end Sys2Proof.Machine
end

section
/-! SUPPORT. The size of the frames that the decoder returns, and an iteration that pops a written byte, in each form
of a POLL (41_frame_interface.md R130 to R132; 44_poll_loop.md R221). -/

namespace Sys2Proof.Machine

/-! ## The decoder's frames -/

/-- TD emits its bytes only when their count is 3 + byte 2, and byte 2 is at most 255. -/
theorem tdFeed_frame_length {d : DecState} {b : Byte} {f : Frame} (h : (tdFeed d b).2 = some f) :
    f.length ≤ tdBufSize := by
  simp only [tdFeed] at h
  split_ifs at h with hfull
  obtain ⟨-, hlen⟩ := hfull
  cases h
  calc _ = 3 + zext _ := hlen
    _ ≤ 3 + 255 := Nat.add_le_add_left (Nat.le_of_lt_succ (BitVec.isLt _)) 3

/-- DecFeed returns no frame longer than FBUF_SIZE (R131 (c)). -/
theorem decFeed_frame_length {p : Params} {d : DecState} {b : Byte} {f : Frame}
    (h : (decFeed p d b).2 = some f) : f.length ≤ p.fbufSize := by
  cases hp : p.decoder with
  | external =>
    simp only [decFeed, hp] at h
    obtain ⟨g, -, rfl⟩ := Option.map_eq_some_iff.1 h
    exact g.property
  | fixtureTD =>
    simp only [decFeed, hp] at h
    simpa [Params.fbufSize, hp] using tdFeed_frame_length h

/-! ## The dispatcher and FEED neither read nor write the pending requests -/

theorem callHandler_withPending (h : Handler) (p : List Byte) (s : State) (rs : List Request) :
    { callHandler h p s with pending := rs } = callHandler h p { s with pending := rs } := by
  cases h
  case setDeviceAddress => cases p with
    | nil => rfl
    | cons v p => rfl
  all_goals rfl

theorem runEntry_withPending (e : Entry) (p : List Byte) (s : State) (rs : List Request) :
    { runEntry e p s with pending := rs } = runEntry e p { s with pending := rs } := by
  cases e with
  | handler h => exact callHandler_withPending h p s rs
  | noHandler => rfl
  | absent => rfl

theorem State.onFrame_withPending (s : State) (fo : Option Frame) (rs : List Request) :
    { s.onFrame fo with pending := rs } = { s with pending := rs }.onFrame fo := by
  unfold State.onFrame
  split
  · rename_i addr cmd n rest
    unfold frameThen
    split_ifs
    · rfl
    · exact runEntry_withPending _ _ s rs
    · rfl
  · rfl

/-- A FEED that completes a frame is the dispatcher's step on it. -/
theorem State.feed_completes {s : State} {b : Byte} {f : Frame} (h : (decFeed s.par s.dec b).2 = some f) :
    s.feed b = { s with dec := (decFeed s.par s.dec b).1 }.onFrame (some f) := by
  simp [State.feed, h]

theorem State.feed_withPending (s : State) (b : Byte) (rs : List Request) :
    { s.feed b with pending := rs } = { s with pending := rs }.feed b := by
  unfold State.feed
  cases h : (decFeed s.par s.dec b).2 with
  | none => simp [h]
  | some f => simpa [h] using State.onFrame_withPending { s with dec := (decFeed s.par s.dec b).1 } (some f) rs

/-- A FEED inside a POLL does not end it: what is kept pending after it could be pending before it. -/
theorem State.feed_keepPolling {s : State} (b : Byte) (x : Ret) (r : Request) (h : s.cstate = .polling) :
    ((s.feed b).returning x).keepPolling r =
      ({ s with pending := r :: s.pending }.feed b).returning x := by
  obtain ⟨a, tr, ks, hfeed, -⟩ := State.feed_frame s b
  have hcstate : ((s.feed b).returning x).cstate = .polling := by rw [hfeed]; exact h
  have hpending : (s.feed b).pending = s.pending := by rw [hfeed]
  rw [State.keepPolling_polling r hcstate, State.returning_pending, hpending,
    ← State.feed_withPending s b (r :: s.pending)]
  rfl

/-! ## The step that is an iteration -/

theorem step_pollIter {s : State} {rest : List Request}
    (h : s.pending = { issuer := .consumer, body := .pollIter } :: rest) :
    step s = pollIter { s with pending := rest } := by
  rw [step, h]
  rfl

/-- An iteration of a pollRest leaves it pending while the POLL goes on (30_encoding.md R93). -/
theorem step_pollRest {s u : State} {rest : List Request}
    (h : s.pending = { issuer := .consumer, body := .pollRest } :: rest)
    (hu : pollIter { s with pending := rest } = .next u) :
    step s = .next (u.keepPolling { issuer := .consumer, body := .pollRest }) := by
  have hiter : servePollIter .consumer { s with pending := rest } = .next u := hu
  simp [step, h, serve, serveBody, servePollRest, hiter]

/-- With nothing pending, a POLL in progress goes on by itself (log 12). -/
theorem step_goesOn {s : State} (h : s.pending = []) (hpoll : s.inPoll = true) : step s = pollIter s := by
  simp [step, h, idleStep, hpoll]

/-- What POP's body leaves when it takes the byte of a written cell (R111). -/
def State.removed (s : State) : State := { s with rd := (s.rd + 1) % s.par.qcap, cnt := s.cnt - 1 }

/-- The byte of a written cell is what POP's body takes. -/
theorem State.popByte_written {s : State} {b : Byte} (hne : s.cnt ≠ 0) (hrd : s.rd < s.par.qcap)
    (hcell : s.qmem.read? s.rd = some b) : s.popByte = .ok (some b, s.removed) := by
  simp [State.popByte, State.cellExists, State.readCell, State.removed, hne, hrd, hcell]

theorem pollIter_written {s : State} {b : Byte} (hd : s.initDone = true) (hpoll : s.cstate = .polling)
    (hne : s.cnt ≠ 0) (hrd : s.rd < s.par.qcap) (hcell : s.qmem.read? s.rd = some b) :
    pollIter s = .next ((s.removed.feed b).returning (.iteration .more)) :=
  pollIter_next.2 ⟨hd, hpoll, _, _, State.popByte_written hne hrd hcell, rfl⟩

/-- The three forms of an iteration: named by the order, of a pollRest, or of a POLL that goes on by itself.
`again` is what stays pending after an iteration that answers MORE. -/
def IterationLeaves (s : State) (rest again : List Request) : Prop :=
  s.pending = { issuer := .consumer, body := .pollIter } :: rest ∧ again = rest ∨
  s.pending = { issuer := .consumer, body := .pollRest } :: rest ∧ again = s.pending ∨
  s.pending = [] ∧ again = []

/-- In every form an iteration that pops a written byte feeds it, and answers MORE (R221). -/
theorem step_iteration_written {s : State} {rest again : List Request} {b : Byte} (hd : s.initDone = true)
    (hform : IterationLeaves s rest again) (hpoll : s.cstate = .polling) (hne : s.cnt ≠ 0)
    (hrd : s.rd < s.par.qcap) (hcell : s.qmem.read? s.rd = some b) :
    step s = .next (({ s with pending := again }.removed.feed b).returning (.iteration .more)) := by
  have hiter (rs : List Request) := pollIter_written (s := { s with pending := rs }) hd hpoll hne hrd hcell
  rcases hform with ⟨hpend, rfl⟩ | ⟨hpend, rfl⟩ | ⟨hpend, rfl⟩
  · rw [step_pollIter hpend, hiter]
  · have hkeep (x : Ret) (r : Request) :=
      State.feed_keepPolling (s := { s with pending := rest }.removed) b x r hpoll
    rw [step_pollRest hpend (hiter rest), hkeep, hpend]
    rfl
  · rw [step_goesOn hpend (by simp [State.inPoll, hd, hpoll]), ← hiter, ← hpend]

end Sys2Proof.Machine
end

section
/-! The statements of the family 41_frame_interface. -/

namespace Sys2Proof.Machine

/-- Settles O42: in every form the step feeds the popped byte, a FEED that completes a frame is the dispatcher's
step on it, and so is the meaning of the instruction the frame decodes to. -/
theorem aFrameCompletedInAPollRunsItsInstruction : Obligations.AFrameCompletedInAPollRunsItsInstruction := by
  intro s rest again b f i hd hform hpoll hne hrd hcell hf hdec
  refine ⟨_, (exec_of_frameOf (frameOf_of_decode hdec) _).trans (if_pos hd), ?_⟩
  have hfeed := State.feed_completes (s := { s with pending := again }.removed) hf
  rw [step_iteration_written hd hform hpoll hne hrd hcell, hfeed]
  rfl

/-- Settles O45, by what each decoder does to its buffer and by the size of what it returns. -/
theorem theDecoderReturnsNoFrameLongerThanItsBuffer :
    Obligations.TheDecoderReturnsNoFrameLongerThanItsBuffer :=
  fun p => ⟨decInit_scratch_length p, fun _ b => ⟨decFeed_scratch_length b, fun _ => decFeed_frame_length⟩⟩

end Sys2Proof.Machine
end

section
/-! SUPPORT. What the dispatcher does with a frame that passes its checks, and what a command table's construction
and its scan answer (42_dispatcher.md R150 to R159, R174, R176). -/

namespace Sys2Proof.Machine

/-! ## The command table -/

/-- The check that construction makes for each code. -/
theorem CommandTable.lists_iff {t : CommandTable} {c : Byte} :
    t.lists c = true ↔ c ∈ t.map Prod.fst := by
  induction t with
  | nil => simp [CommandTable.lists]
  | cons r t ih => simp [CommandTable.lists, ih, @eq_comm Byte c]

/-- Construction refuses a table with a repeated code, and gives back every other. -/
theorem constructTable_eq (t : CommandTable) :
    constructTable t = if (t.map Prod.fst).Nodup then .ok t else .error .duplicateCode := by
  induction t with
  | nil => rfl
  | cons r t ih =>
    simp only [constructTable, ih, List.map_cons, List.nodup_cons]
    by_cases hc : r.1 ∈ t.map Prod.fst
    · simp [CommandTable.lists_iff.2 hc, hc]
    · by_cases hnd : (t.map Prod.fst).Nodup
      · simp [mt CommandTable.lists_iff.1 hc, hc, hnd]
      · simp [mt CommandTable.lists_iff.1 hc, hnd]

/-- The scan finds a handler only in a row of the code. -/
theorem CommandTable.mem_of_lookup {t : CommandTable} {c : Byte} {h : Handler}
    (hc : t.lookup c = .handler h) : (c, .handler h) ∈ t := by
  induction t with
  | nil => cases hc
  | cons r t ih =>
    rw [CommandTable.lookup] at hc
    split_ifs at hc with hr
    · rw [← hr, ← hc]
      exact List.mem_cons_self
    · exact List.mem_cons_of_mem r (ih hc)

/-- The code that the table of R159 gives a handler. -/
def Handler.code : Handler → Byte
  | .setBlinkMask => 0x01
  | .setBlinkSpeed => 0x02
  | .setContrastA => 0x03
  | .setContrastB => 0x04
  | .printString => 0x05
  | .setScrollSpeed => 0x06
  | .saveSettings => 0x07
  | .addTempFont => 0x08
  | .setHighlight => 0x09
  | .setContrastTable => 0x0A
  | .setDeviceAddress => 0xA0

theorem code_of_cmdTable {c : Byte} {h : Handler} (hc : cmdTable c = .handler h) : c = h.code := by
  have hrow := CommandTable.mem_of_lookup hc
  cases h
  all_goals simpa [commandRows, Handler.code] using hrow

/-- Every handler call appends its own event, and no other (R156). -/
theorem callHandler_trace (h : Handler) (p : List Byte) (s : State) :
    (callHandler h p s).trace = s.trace ++ [{ code := h.code, params := p }] := by
  cases h
  case setDeviceAddress => exact State.setAddrCmd_trace _ p
  all_goals rfl

/-! ## Frames that pass the checks -/

theorem matchAddr_iff {d a : Byte} : matchAddr d a = true ↔ a = d ∨ a = 0 := by
  simp [matchAddr, broadcastAddr, or_comm]

/-- A frame that passes the address filter and the length check reaches the effect (R152 to R154). -/
theorem frameThen_accepted {addr n : Byte} {rest : Frame} {s : State} (ha : addr = s.devAddr ∨ addr = 0)
    (hn : zext n ≤ rest.length) (e : List Byte → State → State) :
    frameThen addr n rest e s = e (rest.take (zext n)) s := by
  simp [frameThen, matchAddr_iff.2 ha, declaresTooMany, paramsOf, Nat.not_lt.2 hn]

theorem onFrameOf_accepted {addr n : Byte} {rest : Frame} {s : State} (hd : s.initDone = true)
    (ha : addr = s.devAddr ∨ addr = 0) (hn : zext n ≤ rest.length) (e : List Byte → State → State) :
    onFrameOf addr n rest e s = .next ((e (rest.take (zext n)) s).returning .nothing) := by
  rw [onFrameOf, State.afterInit, if_pos hd, frameThen_accepted ha hn]

/-- A frame with fewer than 3 bytes, or none, is not looked at (R151). -/
theorem State.onFrame_short {fo : Option Frame} (s : State) (h : fo = none ∨ ∃ f, fo = some f ∧ f.length < 3) :
    s.onFrame fo = s.note .malformedFrame := by
  unfold State.onFrame
  split
  · rcases h with h | ⟨f, h, hlen⟩ <;> cases h
    simp only [List.length_cons] at hlen
    omega
  · rfl

/-- The five conditions of R176 hold of the frame, or ON_FRAME leaves one outcome code alone. -/
theorem State.onFrame_cases (s : State) (fo : Option Frame) :
    (∃ a c n rest h, fo = some (a :: c :: n :: rest) ∧ (a = s.devAddr ∨ a = 0) ∧ zext n ≤ rest.length ∧
      cmdTable c = .handler h) ∨
    ∃ k, s.onFrame fo = s.note k := by
  unfold State.onFrame
  split
  · rename_i a c n rest
    rcases frameThen_cases a n rest (runEntry (cmdTable c)) s with ⟨-, h⟩ | ⟨-, -, h⟩ | ⟨ha, hn, h⟩ <;> rw [h]
    · exact .inr ⟨_, rfl⟩
    · exact .inr ⟨_, rfl⟩
    · cases hc : cmdTable c with
      | handler h => exact .inl ⟨a, c, n, rest, h, rfl, matchAddr_iff.1 ha, hn, hc⟩
      | noHandler => exact .inr ⟨_, rfl⟩
      | absent => exact .inr ⟨_, rfl⟩
  · exact .inr ⟨_, rfl⟩

end Sys2Proof.Machine
end

section
/-! The statements of the family 42_dispatcher. -/

namespace Sys2Proof.Machine

/-- Settles O7, by `constructTable_eq`. -/
theorem duplicateCodesAreRefusedAtConstruction : Obligations.DuplicateCodesAreRefusedAtConstruction :=
  ⟨fun t h => (constructTable_eq t).trans (if_pos h), fun t h => (constructTable_eq t).trans (if_neg h),
    by decide⟩

/-- Settles O31: a frame's meaning is ON_FRAME's with it, and that is all `State.onFrame_dispatched` lets it
write. -/
theorem framesAlwaysComplete : Obligations.FramesAlwaysComplete := by
  refine ⟨fun i f s hf hd => ?_, fun i f s hf hd => ?_⟩
  · obtain ⟨a, tr, k, h, -⟩ := State.onFrame_dispatched s (some f)
    refine ⟨a, tr, k, ?_⟩
    rw [exec_of_frameOf hf, State.afterInit, if_pos hd, h]
    rfl
  · rw [exec_of_frameOf hf, State.afterInit_refused hd]

/-- Settles O32, by `exec_of_frameOf`, which compares each command's rule with its code's table entry. -/
theorem theTableDispatcherRunsEachCommandsRule : Obligations.TheTableDispatcherRunsEachCommandsRule :=
  ⟨fun _ _ s hf hd => (exec_of_frameOf hf s).trans (if_pos hd), fun _ _ _ hf hidle => execOnFrame_eq_exec hf hidle⟩

/-- Settles O33: a frame that passes the checks runs its code's entry, which calls a handler or none, and every
other frame is discarded with an outcome code alone. -/
theorem onFrameCallsAHandlerExactlyWhen : Obligations.OnFrameCallsAHandlerExactlyWhen := by
  intro fo s hd hidle
  refine ⟨_, execOnFrame_next.2 ⟨hd, hidle, rfl⟩, ?_, fun hno => ?_⟩
  · rintro a c n rest h rfl ha hn hc
    rw [State.returning_trace, State.onFrame, frameThen_accepted ha hn, hc, code_of_cmdTable hc]
    exact callHandler_trace h _ s
  · obtain ⟨k, h⟩ := (State.onFrame_cases s fo).resolve_left hno
    rw [State.returning_trace, h]
    exact State.note_trace s k

/-- Settles O35: DEV_ADDR and TRACE are as they were unless the outcome is DISPATCHED. -/
theorem discardsHaveNoOtherEffect : Obligations.DiscardsHaveNoOtherEffect := by
  intro fo s t hexec
  obtain ⟨-, -, rfl⟩ := execOnFrame_next.1 hexec
  obtain ⟨a, tr, k, h, -, hdisc⟩ := State.onFrame_dispatched s fo
  rw [h]
  refine ⟨fun hne => ?_, rfl⟩
  have hk : k ≠ .dispatched := by
    rintro rfl
    exact hne rfl
  obtain ⟨rfl, rfl⟩ := hdisc hk
  simp [State.returning]

/-- Settles O6: the scan tests the codes in the order of R159. -/
theorem commandTableHoldsItsThirteenEntries : Obligations.CommandTableHoldsItsThirteenEntries := by
  intro c
  simp only [cmdTable, commandRows, List.cons_append, List.nil_append, CommandTable.lookup, @eq_comm Byte c]
  rfl

/-- Settles O28, by `State.onFrame_short`. -/
theorem shortOrAbsentFramesAreDiscarded : Obligations.ShortOrAbsentFramesAreDiscarded := by
  intro fo s hd hidle hshort
  refine execOnFrame_next.2 ⟨hd, hidle, ?_⟩
  rw [State.onFrame_short s hshort]
  rfl

/-- Settles O36: the ten effects are one, each with its own code. -/
theorem externalCommandsInvokeTheirHandlers : Obligations.ExternalCommandsInvokeTheirHandlers := by
  intro addr n rest s hd ha hn called
  have hcall (c : Byte) :
      onFrameOf addr n rest (fun p s => (s.emit c p).note .dispatched) s = .next (called c) :=
    onFrameOf_accepted hd ha hn _
  exact ⟨hcall 0x01, hcall 0x02, hcall 0x03, hcall 0x04, hcall 0x05, hcall 0x06, hcall 0x07, hcall 0x08,
    hcall 0x09, hcall 0x0A⟩

/-- Settles O37: the parameter list is empty with N = 0, and begins with the byte after byte 2 otherwise. -/
theorem setDeviceAddressWritesItsFirstParameter : Obligations.SetDeviceAddressWritesItsFirstParameter := by
  refine ⟨fun addr rest s hd ha => ?_, fun addr n v p s hd ha hpos hn => ?_⟩
  · exact onFrameOf_accepted (n := 0) hd ha (Nat.zero_le rest.length) cmdSetDeviceAddress
  · have htake : (v :: p).take (zext n) = v :: p.take (zext n - 1) := List.take_cons hpos
    refine (onFrameOf_accepted hd ha hn cmdSetDeviceAddress).trans ?_
    rw [htake]
    rfl

/-- Settles O38: both entries are those without a handler. -/
theorem helloAndSystemDoNothing : Obligations.HelloAndSystemDoNothing := by
  intro addr n rest s hd ha hn idle
  have hnoop : onFrameOf addr n rest reservedNoop s = .next idle := onFrameOf_accepted hd ha hn _
  exact ⟨hnoop, hnoop⟩

/-- Settles O39: the 17 rows have one meaning, which does not read their free bits. -/
theorem codesWithoutAnEntryDoNothing : Obligations.CodesWithoutAnEntryDoNothing := by
  intro addr n rest s x1 x2 x3 x4 x5 x6 hd ha hn gone
  have hgone : onFrameOf addr n rest unknownCommand s = .next gone := onFrameOf_accepted hd ha hn _
  exact ⟨hgone, hgone, hgone, hgone, hgone, hgone, hgone, hgone, hgone, hgone, hgone, hgone, hgone, hgone,
    hgone, hgone, hgone⟩

end Sys2Proof.Machine
end

section
/-! SUPPORT. A transaction that writes DEV_ADDR, and the address filter's decision on the frame after it
(43_address.md R200, R201, R203, R204; 42_dispatcher.md R152). -/

namespace Sys2Proof.Machine

/-! ## The writers of DEV_ADDR -/

/-- INIT has no place inside a POLL (R255). -/
theorem execInit_polling_refused {s : State} (hd : s.initDone = true) (hpoll : s.cstate = .polling) (a : Byte) :
    execInit a s = .refused .wrongContext := by
  simp [execInit, hd, State.pollContext, hpoll, contextAllows, whenAllowed]

/-- A command 0xA0 that answers a next state was given one after INIT. -/
theorem initDone_of_setDeviceAddress {addr n : Byte} {rest : Frame} {s t : State}
    (h : exec (.setDeviceAddress addr n rest) s = .next t) : s.initDone = true :=
  (State.afterInit_next.1 h).1

/-- Whichever of the three wrote it, DEV_ADDR holds the value afterwards, and INIT is done. -/
theorem devAddr_of_addressWrite {v : Byte} {s t : State}
    (h : exec (.init v) s = .next t ∨ exec (.setAddress v) s = .next t ∨
      ∃ addr n p, (addr = s.devAddr ∨ addr = 0) ∧ 1 ≤ zext n ∧ zext n ≤ p.length + 1 ∧
        exec (.setDeviceAddress addr n (v :: p)) s = .next t) :
    t.devAddr = v ∧ t.initDone = true := by
  rcases h with h | h | ⟨addr, n, p, ha, hpos, hn, h⟩
  · obtain ⟨-, rfl⟩ := execInit_next.1 h
    exact ⟨rfl, rfl⟩
  · obtain ⟨hd, -, rfl⟩ := execSetAddress_next.1 h
    exact ⟨rfl, hd⟩
  · have hd := initDone_of_setDeviceAddress h
    obtain ⟨-, hwrite⟩ := setDeviceAddressWritesItsFirstParameter
    obtain rfl := Host.Outcome.next.inj (h.symm.trans (hwrite addr n v p s hd ha hpos hn))
    exact ⟨rfl, hd⟩

/-! ## The filter's decision -/

/-- A frame addressed neither to the device nor to all is discarded as foreign (R152). -/
theorem State.onFrame_foreign {s : State} {a : Byte} (ha : a ≠ s.devAddr) (h0 : a ≠ 0) (c n : Byte)
    (rest : Frame) : s.onFrame (some (a :: c :: n :: rest)) = s.note .foreignAddress := by
  have hm : ¬ matchAddr s.devAddr a = true := fun hm => (matchAddr_iff.1 hm).elim ha h0
  exact if_neg hm

/-- From `s` to `t` one outcome code was recorded, and it is not the address filter's. -/
def PassedFilter (s t : State) : Prop := ∃ k, t.diag = s.diag ++ [k] ∧ k ≠ .foreignAddress

theorem passedFilter_note (s : State) {k : DiagCode} (hk : k ≠ .foreignAddress) : PassedFilter s (s.note k) :=
  ⟨k, rfl, hk⟩

/-- Every handler call records DISPATCHED (R156). -/
theorem callHandler_diag (h : Handler) (p : List Byte) (s : State) :
    (callHandler h p s).diag = s.diag ++ [.dispatched] := by
  cases h
  case setDeviceAddress => exact congrArg (· ++ [.dispatched]) (State.setAddrCmd_diag (s.emit 0xA0#8 p) p)
  all_goals rfl

theorem runEntry_passedFilter (e : Entry) (p : List Byte) (s : State) : PassedFilter s (runEntry e p s) := by
  cases e with
  | handler h => exact ⟨.dispatched, callHandler_diag h p s, by decide⟩
  | noHandler => exact passedFilter_note s (by decide)
  | absent => exact passedFilter_note s (by decide)

/-- A frame addressed to the device or to all passes the filter (R152). -/
theorem State.onFrame_passedFilter {s : State} {a : Byte} (ha : a = s.devAddr ∨ a = 0) (c n : Byte)
    (rest : Frame) : PassedFilter s (s.onFrame (some (a :: c :: n :: rest))) := by
  rw [State.onFrame]
  rcases frameThen_cases a n rest (runEntry (cmdTable c)) s with ⟨hm, -⟩ | ⟨-, -, h⟩ | ⟨-, -, h⟩
  · exact absurd (matchAddr_iff.2 ha) (by simp [hm])
  · rw [h]
    exact passedFilter_note s (by decide)
  · rw [h]
    exact runEntry_passedFilter _ _ s

end Sys2Proof.Machine
end

section
/-! The statements of the family 43_address. -/

namespace Sys2Proof.Machine

/-- Settles O15: each writer leaves `v` in DEV_ADDR, and the filter of the frame after it reads DEV_ADDR. -/
theorem addressWritesTakeEffectAtOnce : Obligations.AddressWritesTakeEffectAtOnce := by
  intro v s t hwrite j a c n rest hf
  obtain ⟨rfl, hd⟩ := devAddr_of_addressWrite hwrite
  have hexec : exec j t = .next ((t.onFrame (some (a :: c :: n :: rest))).returning .nothing) :=
    (exec_of_frameOf hf t).trans (if_pos hd)
  refine ⟨fun ha h0 => ?_, fun ha => ?_⟩
  · rw [hexec, State.onFrame_foreign ha h0]
    rfl
  · obtain ⟨k, hdiag, hk⟩ := State.onFrame_passedFilter (.inl ha) c n rest
    exact ⟨_, k, hexec, hdiag, hk⟩

/-- Settles O12, by the next state of INIT; the FIFO it leaves is empty since CNT is 0. -/
theorem initSetsTheBlockUp : Obligations.InitSetsTheBlockUp := by
  refine ⟨fun a s hidle => ?_, fun a s hd hpoll => execInit_polling_refused hd hpoll a⟩
  have hqueue : (s.initialised a).queue = [] := State.queue_of_cnt_zero (State.initialised_cnt s a)
  exact ⟨_, execInit_next.2 ⟨hidle, rfl⟩, rfl, rfl, rfl, rfl, hqueue, rfl, rfl, rfl, rfl, rfl, rfl, rfl, rfl,
    rfl⟩

/-- Settles O13, by the next state of SET_ADDRESS and the consumer's two checks. -/
theorem setAddressWritesTheRegister : Obligations.SetAddressWritesTheRegister :=
  ⟨fun _ _ hd hidle => execSetAddress_next.2 ⟨hd, hidle, rfl⟩, fun _ _ hd => State.afterInit_refused hd _,
    fun _ _ hd hpoll => State.consumerMay_polling_refused hd hpoll rfl _⟩

/-- Settles O14, by the next state of GET_ADDRESS and the consumer's two checks. -/
theorem getAddressReturnsTheRegister : Obligations.GetAddressReturnsTheRegister :=
  ⟨fun _ hd hidle => execGetAddress_next.2 ⟨hd, hidle, rfl⟩, fun _ hd => State.afterInit_refused hd _,
    fun _ hd hpoll => State.consumerMay_polling_refused hd hpoll rfl _⟩

end Sys2Proof.Machine
end

section
/-! SUPPORT. FEED and an accepted PUSH do not meet: FEED neither reads nor writes what the PUSH writes
(44_poll_loop.md R222). -/

namespace Sys2Proof.Machine

/-- The state with the FIFO elements that an accepted PUSH writes replaced (40_byte_queue.md R110). -/
def State.withFifo (s : State) (m : Memory) (wr cnt : Nat) : State :=
  { s with qmem := m, wr := wr, cnt := cnt }

theorem callHandler_withFifo (h : Handler) (p : List Byte) (s : State) (m : Memory) (wr cnt : Nat) :
    (callHandler h p s).withFifo m wr cnt = callHandler h p (s.withFifo m wr cnt) := by
  cases h
  case setDeviceAddress => cases p with
    | nil => rfl
    | cons v p => rfl
  all_goals rfl

theorem runEntry_withFifo (e : Entry) (p : List Byte) (s : State) (m : Memory) (wr cnt : Nat) :
    (runEntry e p s).withFifo m wr cnt = runEntry e p (s.withFifo m wr cnt) := by
  cases e with
  | handler h => exact callHandler_withFifo h p s m wr cnt
  | noHandler => rfl
  | absent => rfl

theorem State.onFrame_withFifo (s : State) (fo : Option Frame) (m : Memory) (wr cnt : Nat) :
    (s.onFrame fo).withFifo m wr cnt = (s.withFifo m wr cnt).onFrame fo := by
  have haddr : (s.withFifo m wr cnt).devAddr = s.devAddr := rfl
  unfold State.onFrame
  split
  · unfold frameThen
    rw [haddr]
    split_ifs
    · rfl
    · exact runEntry_withFifo _ _ s m wr cnt
    · rfl
  · rfl

/-- A FEED that completes no frame writes DEC alone. -/
theorem State.feed_incomplete {s : State} {b : Byte} (h : (decFeed s.par s.dec b).2 = none) :
    s.feed b = { s with dec := (decFeed s.par s.dec b).1 } := by
  simp [State.feed, h]

theorem State.feed_withFifo (s : State) (b : Byte) (m : Memory) (wr cnt : Nat) :
    (s.feed b).withFifo m wr cnt = (s.withFifo m wr cnt).feed b := by
  cases h : (decFeed s.par s.dec b).2 with
  | none =>
    rw [State.feed_incomplete h, State.feed_incomplete (s := s.withFifo m wr cnt) h]
    rfl
  | some f =>
    rw [State.feed_completes h, State.feed_completes (s := s.withFifo m wr cnt) h, State.onFrame_withFifo]
    rfl

/-- A PUSH that the FIFO has room for gives the same state before a FEED as after it. -/
theorem State.feed_pushByte {s : State} (x b : Byte) (hroom : s.cnt ≠ s.par.qcap) (hwr : s.wr < s.par.qcap) :
    (s.feed x).pushByte b =
      .ok (true, (s.withFifo (s.qmem.write s.wr b) ((s.wr + 1) % s.par.qcap) (s.cnt + 1)).feed x) := by
  obtain ⟨a, tr, ks, hfeed, -⟩ := State.feed_frame s x
  rw [← State.feed_withFifo, State.pushByte_room b (by rw [hfeed]; exact hroom) (by rw [hfeed]; exact hwr), hfeed]
  rfl

/-- A sound FIFO has room after a POP that took a byte. -/
theorem State.popByte_room {s u : State} {x : Byte} (hi : FifoInv s) (h : s.popByte = .ok (some x, u)) :
    u.cnt < u.par.qcap := by
  have ⟨_, _, hle, _⟩ := hi
  obtain ⟨-, -, hcnt⟩ := State.popByte_queue hi h
  obtain ⟨-, -, hpar, -⟩ := State.popByte_consumer h
  rw [hpar]
  omega

end Sys2Proof.Machine
end

section
/-! SUPPORT. The iterations of a POLL: one that finds a byte, one that ends the POLL, and one that is refused between
POLLs (44_poll_loop.md R220, R221). -/

namespace Sys2Proof.Machine

/-- The overflow codes that DIAG holds: the bytes dropped so far (60_exceptions.md R242). -/
def State.overflows (s : State) : Nat := s.diag.count .queueOverflow

/-- From `s` a step that is an iteration answers MORE and leads to `u`, still in the POLL and as sound as `s`; `again`
are the requests pending after it. -/
structure MoreStep (s : State) (again : List Request) (u : State) : Prop extends SoundStep s again u where
  cnt       : u.cnt + 1 = s.cnt
  overflows : u.overflows = s.overflows

/-- In a POLL an iteration on a sound FIFO that is not empty answers MORE. -/
theorem step_more {s : State} {rest again : List Request} (hi : Inv s) (hd : s.initDone = true)
    (hpoll : s.cstate = .polling) (hform : IterationLeaves s rest again) (hne : s.cnt ≠ 0) :
    ∃ u, MoreStep s again u := by
  obtain ⟨hrd, -, -, -, hwritten⟩ := fifoInv_of_inv hi hd
  obtain ⟨b, hcell⟩ := Option.isSome_iff_exists.1 (hwritten 0 (Nat.pos_of_ne_zero hne))
  rw [Nat.add_zero, Nat.mod_eq_of_lt hrd] at hcell
  have hnext := step_iteration_written hd hform hpoll hne hrd hcell
  have hinv := stepKeepsTheInvariant _ _ hi hnext
  obtain ⟨a, tr, ks, hfeed, hks⟩ := State.feed_frame { s with pending := again }.removed b
  rw [hfeed] at hnext hinv
  exact ⟨_, ⟨hnext, hinv, hd, rfl, rfl, rfl⟩, Nat.sub_add_cancel (Nat.pos_of_ne_zero hne),
    by simpa [State.overflows, State.removed] using List.count_eq_zero.2 hks⟩

theorem pollIter_empty {s : State} (hd : s.initDone = true) (hpoll : s.cstate = .polling) (hz : s.cnt = 0) :
    pollIter s = .next { s with cstate := .idle, ret := .iteration .empty } :=
  pollIter_next.2 ⟨hd, hpoll, none, s, if_pos hz, rfl⟩

/-- In every form an iteration on an empty FIFO ends the POLL, and leaves the requests after it (R221). -/
theorem step_empty {s : State} {rest again : List Request} (hd : s.initDone = true) (hpoll : s.cstate = .polling)
    (hform : IterationLeaves s rest again) (hrest : s.pending = [] → rest = []) (hz : s.cnt = 0) :
    step s = .next { s with pending := rest, cstate := .idle, ret := .iteration .empty } := by
  have hiter := pollIter_empty (s := { s with pending := rest }) hd hpoll hz
  rcases hform with ⟨hpend, -⟩ | ⟨hpend, -⟩ | ⟨hpend, -⟩
  · rw [step_pollIter hpend, hiter]
  · rw [step_pollRest hpend hiter]
    rfl
  · rw [step_goesOn hpend (by simp [State.inPoll, hd, hpoll]), ← hiter, hrest hpend, ← hpend]

/-- Between POLLs an iteration is refused (60_exceptions.md R255). -/
theorem pollIter_betweenPolls {s : State} (hd : s.initDone = true) (hidle : s.cstate = .idle) :
    pollIter s = .refused .wrongContext := by
  simp [pollIter, State.consumerMay, State.afterInit, hd, State.pollContext, hidle, contextAllows, whenAllowed]

theorem step_iteration_betweenPolls {s : State} {body : Body} {rest : List Request} (hd : s.initDone = true)
    (hidle : s.cstate = .idle) (hbody : body = .pollIter ∨ body = .pollRest)
    (hpend : s.pending = { issuer := .consumer, body := body } :: rest) :
    step s = .refused .wrongContext := by
  have hiter : servePollIter .consumer { s with pending := rest } = .refused .wrongContext :=
    pollIter_betweenPolls (s := { s with pending := rest }) hd hidle
  rcases hbody with rfl | rfl
  · simp [step, hpend, serve, serveBody, hiter]
  · simp [step, hpend, serve, serveBody, servePollRest, hiter]

/-! ## Any step inside a POLL -/

/-- An iteration from `s` to `t` found the FIFO empty and ended the POLL, or took one byte and did not. -/
def IterationEffect (s t : State) : Prop :=
  s.cnt = 0 ∧ t.cstate = .idle ∨ t.cstate = .polling ∧ t.cnt + 1 = s.cnt

/-- A PUSH from `s` to `t` left CSTATE, and CNT unless it was accepted. -/
def PushEffect (s t : State) : Prop :=
  t.cstate = s.cstate ∧ (t.ret = .accepted true ∨ t.cnt = s.cnt)

theorem iteration_effect {s t u : State} {rest : List Request} {r : Option Byte} (hpoll : s.cstate = .polling)
    (hpop : { s with pending := rest }.popByte = .ok (r, u))
    (ht : t = { afterPop (r, u) with pending := t.pending }) : IterationEffect s t := by
  obtain ⟨-, hcstate, -⟩ := State.popByte_consumer hpop
  cases r with
  | none =>
    obtain ⟨hz, rfl⟩ := State.popByte_none hpop
    rw [ht]
    exact .inl ⟨hz, rfl⟩
  | some b =>
    obtain ⟨a, tr, ks, hfeed, -⟩ := State.feed_frame u b
    rw [ht, afterPop_some, hfeed]
    refine .inr ⟨hcstate.trans hpoll, ?_⟩
    rcases State.popByte_cases hpop with ⟨-, hr, -⟩ | ⟨hne, -, b', -, ⟨-, rfl⟩ | ⟨-, -, rfl⟩⟩
    · cases hr
    · exact Nat.sub_add_cancel (Nat.pos_of_ne_zero hne)
    · exact Nat.sub_add_cancel (Nat.pos_of_ne_zero hne)

/-- What a step inside a POLL does to CSTATE and CNT. -/
theorem step_polling_effect {s t : State} (hd : s.initDone = true) (hpoll : s.cstate = .polling)
    (h : step s = .next t) :
    t.initDone = true ∧ (Iterates s ∧ IterationEffect s t ∨
      (∃ b rest, Takes s .producer (.push b) rest) ∧ PushEffect s t) := by
  rcases step_polling_cases hd hpoll h with
    ⟨hit, rest, r, u, hpop, ht⟩ | ⟨b, rest, htk, acc, u, hpush, rfl⟩
  · exact ⟨(iteration_keeps hpop ht).initDone.trans hd, .inl ⟨hit, iteration_effect hpoll hpop ht⟩⟩
  · rcases State.pushByte_cases hpush with ⟨-, rfl, rfl⟩ | ⟨-, -, rfl, rfl⟩
    · exact ⟨hd, .inr ⟨⟨b, rest, htk⟩, rfl, .inr rfl⟩⟩
    · exact ⟨hd, .inr ⟨⟨b, rest, htk⟩, rfl, .inl rfl⟩⟩

end Sys2Proof.Machine
end

section
/-! SUPPORT. How many iterations a POLL has: left to itself, and under a schedule of PUSHes and iterations
(44_poll_loop.md R223). -/

namespace Sys2Proof.Machine

/-- A POLL that no other request interrupts goes on for CNT iterations, and the one after them ends it. -/
theorem run_poll {s : State} {rest : List Request} (hi : Inv s) (hd : s.initDone = true)
    (hpoll : s.cstate = .polling) (hform : IterationLeaves s rest s.pending) (hrest : s.pending = [] → rest = []) :
    (∀ j ≤ s.cnt, ∃ u, Host.Core.run core j s = .next u ∧ u.cstate = .polling ∧ u.cnt + j = s.cnt ∧
      u.pending = s.pending) ∧
    ∃ t, Host.Core.run core (s.cnt + 1) s = .next t ∧ t.cstate = .idle ∧ t.cnt = 0 ∧ t.pending = rest := by
  induction hk : s.cnt generalizing s with
  | zero =>
    refine ⟨fun j hj => ?_, _, (core_run_one s).trans (step_empty hd hpoll hform hrest hk), rfl, hk, rfl⟩
    obtain rfl := Nat.le_zero.1 hj
    exact ⟨s, rfl, hpoll, hk, rfl⟩
  | succ k ih =>
    obtain ⟨u, hu⟩ := step_more hi hd hpoll hform (by omega)
    have hcnt : u.cnt = k := Nat.succ.inj (hu.cnt.trans hk)
    have hpend : u.pending = s.pending := hu.pending
    obtain ⟨hgo, hend⟩ := ih hu.inv hu.initDone (hu.cstate.trans hpoll)
      (by rwa [IterationLeaves, hpend]) (by rwa [hpend]) hcnt
    refine ⟨fun j hj => ?_, by rwa [core_run_succ _ hu.next]⟩
    cases j with
    | zero => exact ⟨s, rfl, hpoll, hk, rfl⟩
    | succ j =>
      obtain ⟨v, hrun, hv, hvcnt, hvpend⟩ := hgo j (Nat.le_of_succ_le_succ hj)
      exact ⟨v, (core_run_succ j hu.next).trans hrun, hv, congrArg (· + 1) hvcnt, hvpend.trans hpend⟩

/-! ## Schedules -/

/-- A PUSH is counted once, in CNT or among the overflows. -/
theorem PushStep.counts {s u : State} {b : Byte} {rest : List Request} (hu : PushStep s b rest u) (hi : FifoInv s) :
    u.cnt = min s.par.qcap (s.cnt + 1) ∧ u.overflows = s.overflows + (s.cnt + 1 - s.par.qcap) := by
  have hqueue := congrArg List.length hu.queue
  rw [State.queue_length (fifoInv_of_inv hu.inv hu.initDone), List.length_take, List.length_append,
    State.queue_length hi] at hqueue
  refine ⟨hqueue, ?_⟩
  rw [State.overflows, hu.diag, State.queue_length hi, List.count_append, List.count_replicate_self]
  rfl

/-- After the part `l` of a schedule `l ++ l'`, a run from `s` has come to `u`: a sound state with `l'` before it, in
which every PUSH so far is a byte held, taken or dropped. -/
structure Scheduled (s : State) (l l' : List (Option Byte)) (u : State) : Prop where
  inv       : Inv u
  initDone  : u.initDone = true
  pending   : u.pending = scheduleRequests l'
  overflows : s.overflows ≤ u.overflows
  counts    : u.cnt + l.countP Option.isNone + u.overflows = s.cnt + l.countP Option.isSome + s.overflows

/-- Between POLLs a schedule runs only as far as it has no iteration, and starts no POLL. -/
theorem run_schedule_idle {s u : State} {l l' : List (Option Byte)} (hi : Inv s) (hd : s.initDone = true)
    (hidle : s.cstate = .idle) (hpend : s.pending = scheduleRequests (l ++ l'))
    (hrun : Host.Core.run core l.length s = .next u) : u.cstate = .idle := by
  induction l generalizing s with
  | nil => cases hrun; exact hidle
  | cons o l ih =>
    cases o with
    | some b =>
      obtain ⟨v, hv⟩ := step_push hi hd hpend
      rw [List.length_cons, core_run_succ _ hv.next] at hrun
      exact ih hv.inv hv.initDone (hv.cstate.trans hidle) hv.pending hrun
    | none =>
      have hstep : core.step s = .refused .wrongContext := step_iteration_betweenPolls hd hidle (.inl rfl) hpend
      simp [Host.Core.run, hstep] at hrun

/-- A PUSH before a scheduled part is one more that is held, taken or dropped. -/
theorem Scheduled.push {s v u : State} {b : Byte} {l l' : List (Option Byte)} {rest : List Request}
    (h : Scheduled v l l' u) (hi : FifoInv s) (hv : PushStep s b rest v) : Scheduled s (some b :: l) l' u := by
  obtain ⟨hinv, hinit, hpend, hle, hcounts⟩ := h
  have ⟨_, _, hcap, _⟩ := hi
  obtain ⟨hcnt, hover⟩ := hv.counts hi
  have hnone : (some b :: l).countP Option.isNone = l.countP Option.isNone := by simp
  have hsome : (some b :: l).countP Option.isSome = l.countP Option.isSome + 1 := by simp
  exact ⟨hinv, hinit, hpend, by omega, by omega⟩

/-- An iteration that answers MORE, before a scheduled part, is one more that takes a byte. -/
theorem Scheduled.more {s v u : State} {l l' : List (Option Byte)} {again : List Request}
    (h : Scheduled v l l' u) (hv : MoreStep s again v) : Scheduled s (none :: l) l' u := by
  obtain ⟨hinv, hinit, hpend, hle, hcounts⟩ := h
  have hcnt := hv.cnt
  have hover := hv.overflows
  have hnone : (none :: l).countP Option.isNone = l.countP Option.isNone + 1 := by simp
  have hsome : (none :: l).countP Option.isSome = l.countP Option.isSome := by simp
  exact ⟨hinv, hinit, hpend, by omega, by omega⟩

/-- A schedule after which the POLL is still in progress was inside it throughout: an iteration on an empty FIFO
would have ended it. -/
theorem run_schedule {s u : State} {l l' : List (Option Byte)} (hi : Inv s) (hd : s.initDone = true)
    (hpoll : s.cstate = .polling) (hpend : s.pending = scheduleRequests (l ++ l'))
    (hrun : Host.Core.run core l.length s = .next u) (hu : u.cstate = .polling) : Scheduled s l l' u := by
  induction l generalizing s with
  | nil => cases hrun; exact ⟨hi, hd, hpend, le_rfl, rfl⟩
  | cons o l ih =>
    cases o with
    | some b =>
      obtain ⟨v, hv⟩ := step_push hi hd hpend
      rw [List.length_cons, core_run_succ _ hv.next] at hrun
      exact (ih hv.inv hv.initDone (hv.cstate.trans hpoll) hv.pending hrun).push (fifoInv_of_inv hi hd) hv
    | none =>
      have hform : IterationLeaves s (scheduleRequests (l ++ l')) (scheduleRequests (l ++ l')) := .inl ⟨hpend, rfl⟩
      by_cases hz : s.cnt = 0
      · have hstep := step_empty hd hpoll hform (by simp [hpend, scheduleRequests]) hz
        rw [List.length_cons, core_run_succ _ hstep] at hrun
        have hidle := run_schedule_idle (stepKeepsTheInvariant _ _ hi hstep) hd rfl rfl hrun
        exact absurd (hidle.symm.trans hu) CState.noConfusion
      · obtain ⟨v, hv⟩ := step_more hi hd hpoll hform hz
        rw [List.length_cons, core_run_succ _ hv.next] at hrun
        exact (ih hv.inv hv.initDone (hv.cstate.trans hpoll) hv.pending hrun).more hv

end Sys2Proof.Machine
end

section
/-! SUPPORT. Runs that do not end: a POLL under a producer that stops, and under one that does not
(44_poll_loop.md R223; 92_eei_decisions.md D19). -/

namespace Sys2Proof.Machine

section
variable {inputs : Nat → List Request} {states : Nat → State}

/-- `step_polling_effect` along a run: what arrives before the step is neither CSTATE nor CNT. -/
theorem run_polling_effect (hrun : IsRun inputs states) {k : Nat} (hd : (states k).initDone = true)
    (hpoll : (states k).cstate = .polling) :
    (states (k + 1)).initDone = true ∧
      (IteratesAt inputs states k ∧ IterationEffect (states k) (states (k + 1)) ∨
        (∃ b rest, Takes ((states k).arriving (inputs k)) .producer (.push b) rest) ∧
          PushEffect (states k) (states (k + 1))) :=
  step_polling_effect (s := (states k).arriving (inputs k)) hd hpoll (hrun k)

/-- A run that is in a POLL at every step has INIT_DONE at every step. -/
theorem run_initDone (hrun : IsRun inputs states) (hd : (states 0).initDone = true)
    (hpoll : ∀ k, (states k).cstate = .polling) (k : Nat) : (states k).initDone = true := by
  induction k with
  | zero => exact hd
  | succ k ih => exact (run_polling_effect hrun ih (hpoll k)).1

/-- Where the run stays in the POLL, an iteration takes a byte. -/
theorem cnt_succ_of_iteratesAt (hrun : IsRun inputs states) (hd : ∀ k, (states k).initDone = true)
    (hpoll : ∀ k, (states k).cstate = .polling) {k : Nat} (hit : IteratesAt inputs states k) :
    (states (k + 1)).cnt + 1 = (states k).cnt := by
  obtain ⟨-, ⟨-, heffect⟩ | ⟨⟨b, rest, htk⟩, -⟩⟩ := run_polling_effect hrun (hd k) (hpoll k)
  · rcases heffect with ⟨-, hidle⟩ | ⟨-, hcnt⟩
    · rw [hpoll] at hidle
      cases hidle
    · exact hcnt
  · exact absurd hit (takes_not_iterates htk)

/-- In a POLL only an accepted PUSH adds to CNT. -/
theorem cnt_succ_le_of_not_acceptsAt (hrun : IsRun inputs states) (hd : ∀ k, (states k).initDone = true)
    (hpoll : ∀ k, (states k).cstate = .polling) {k : Nat} (hno : ¬ AcceptsAt inputs states k) :
    (states (k + 1)).cnt ≤ (states k).cnt := by
  obtain ⟨-, ⟨hit, -⟩ | ⟨htk, -, hret | hcnt⟩⟩ := run_polling_effect hrun (hd k) (hpoll k)
  · exact Nat.le_of_succ_le (cnt_succ_of_iteratesAt hrun hd hpoll hit).le
  · exact absurd ⟨htk, hret⟩ hno
  · exact hcnt.le

end

/-! ## A producer that keeps the FIFO from emptying -/

/-- A producer that pushes a byte whenever the FIFO is empty. -/
def refill (s : State) : List Request :=
  if s.cnt = 0 then [producerWord (0x1#4 ++ 0#8)] else []

/-- The run from `s` beside that producer. -/
def refilled (s : State) : Nat → State
  | 0 => s
  | k + 1 =>
    match stepWith (refill (refilled s k)) (refilled s k) with
    | .next t => t
    | _ => refilled s k

/-- A sound state in a POLL with nothing pending. -/
structure PollAlone (s : State) : Prop where
  inv      : Inv s
  initDone : s.initDone = true
  cstate   : s.cstate = .polling
  pending  : s.pending = []

theorem PollAlone.iterates {s : State} (h : PollAlone s) : Iterates s :=
  .inr (.inr ⟨h.pending, by simp [State.inPoll, h.initDone, h.cstate]⟩)

theorem refill_nonempty {s : State} (hne : s.cnt ≠ 0) : s.arriving (refill s) = s := by
  rw [refill, if_neg hne, State.arriving_nil]

/-- Beside that producer a step leaves a POLL in progress, and an empty FIFO does not stay empty. -/
theorem PollAlone.refill_step {s : State} (h : PollAlone s) :
    ∃ t, stepWith (refill s) s = .next t ∧ PollAlone t ∧ (s.cnt = 0 → t.cnt ≠ 0) := by
  by_cases hz : s.cnt = 0
  · have hpend : (s.arriving (refill s)).pending = producerWord (0x1#4 ++ 0#8) :: [] := by
      rw [State.arriving_pending, h.pending, refill, if_pos hz]
      rfl
    have hinv : Inv (s.arriving (refill s)) := h.inv
    obtain ⟨t, ht⟩ := step_push hinv h.initDone hpend
    obtain ⟨hcnt, -⟩ := ht.counts (fifoInv_of_inv hinv h.initDone)
    have hpos := Params.qcap_pos (s.arriving (refill s)).par
    exact ⟨t, ht.next, ⟨ht.inv, ht.initDone, ht.cstate.trans h.cstate, ht.pending⟩, fun _ => by omega⟩
  · obtain ⟨t, ht⟩ := step_more (rest := []) h.inv h.initDone h.cstate (.inr (.inr ⟨h.pending, rfl⟩)) hz
    rw [stepWith, refill_nonempty hz]
    exact ⟨t, ht.next, ⟨ht.inv, ht.initDone, ht.cstate.trans h.cstate, ht.pending⟩, fun hz' => absurd hz' hz⟩

theorem refilled_succ {s t : State} {k : Nat} (h : stepWith (refill (refilled s k)) (refilled s k) = .next t) :
    refilled s (k + 1) = t := by
  rw [refilled, h]

theorem PollAlone.refilled_pollAlone {s : State} (h : PollAlone s) (k : Nat) : PollAlone (refilled s k) := by
  induction k with
  | zero => exact h
  | succ k ih =>
    obtain ⟨t, hstep, ht, -⟩ := ih.refill_step
    rwa [refilled_succ hstep]

theorem PollAlone.refilled_isRun {s : State} (h : PollAlone s) :
    IsRun (fun k => refill (refilled s k)) (refilled s) := by
  intro k
  obtain ⟨t, hstep, -⟩ := (h.refilled_pollAlone k).refill_step
  rwa [refilled_succ hstep]

/-- Of two steps beside that producer one is an iteration. -/
theorem PollAlone.refilled_iterates {s : State} (h : PollAlone s) (n : Nat) :
    ∃ k, n ≤ k ∧ IteratesAt (fun k => refill (refilled s k)) (refilled s) k := by
  have iterates_of_byte {k : Nat} (hne : (refilled s k).cnt ≠ 0) :
      IteratesAt (fun k => refill (refilled s k)) (refilled s) k := by
    rw [IteratesAt, refill_nonempty hne]
    exact (h.refilled_pollAlone k).iterates
  by_cases hz : (refilled s n).cnt = 0
  · obtain ⟨t, hstep, -, hne⟩ := (h.refilled_pollAlone n).refill_step
    exact ⟨n + 1, Nat.le_succ n, iterates_of_byte (by rw [refilled_succ hstep]; exact hne hz)⟩
  · exact ⟨n, le_rfl, iterates_of_byte hz⟩

end Sys2Proof.Machine
end

section
/-! The statements of the family 44_poll_loop. -/

namespace Sys2Proof.Machine

/-- Settles O43, by induction on CNT (`run_poll`): an iteration that finds a byte leaves the order as it was. -/
theorem aPollEndsAfterItsPendingBytes : Obligations.APollEndsAfterItsPendingBytes := by
  intro s rest hi hd hpoll hform
  rcases hform with ⟨hpend, rfl⟩ | hpend
  · exact run_poll hi hd hpoll (.inr (.inr ⟨hpend, hpend⟩)) fun _ => rfl
  · exact run_poll hi hd hpoll (.inr (.inl ⟨hpend, rfl⟩)) (by simp [hpend])

/-- Settles O44, by induction on the schedule (`run_schedule`): every PUSH is a byte held, taken or dropped. -/
theorem aPollHasAsManyIterationsAsBytesPlusOne : Obligations.APollHasAsManyIterationsAsBytesPlusOne := by
  intro l s u hi hd hpoll hpend hrun hu
  obtain ⟨hinv, hinit, hpend', hle, hcounts⟩ := run_schedule hi hd hpoll hpend hrun hu
  have hform : IterationLeaves u [] [] := .inl ⟨hpend', rfl⟩
  unfold State.overflows at hle hcounts
  have hcount : u.cnt + l.countP Option.isNone + (u.diag.count .queueOverflow - s.diag.count .queueOverflow) =
      s.cnt + l.countP Option.isSome := by omega
  refine ⟨hle, hcount, ?_⟩
  by_cases hz : u.cnt = 0
  · refine ⟨_, step_empty hinit hu hform (fun _ => rfl) hz, iff_of_true rfl hz, fun _ => ?_⟩
    rw [List.countP_append, List.countP_singleton, Option.isNone_none, if_pos rfl]
    omega
  · obtain ⟨t, ht⟩ := step_more hinv hinit hu hform hz
    have hbusy : t.cstate ≠ .idle := by simp [ht.cstate, hu]
    exact ⟨t, ht.next, iff_of_false hbusy hz, fun hidle => absurd hidle hbusy⟩

/-- Settles O27: FEED neither reads nor writes what the PUSH writes, and a POP leaves room. -/
theorem pushInsideAnIterationMakesNoDifference : Obligations.PushInsideAnIterationMakesNoDifference := by
  refine ⟨fun s t x b acc hroom hpush => ?_, fun s u x hi hd hpop => ?_⟩
  · rcases State.pushByte_cases hpush with ⟨hfull, -⟩ | ⟨-, hwr, rfl, rfl⟩
    · exact absurd hfull hroom
    · exact State.feed_pushByte x b hroom hwr
  · exact (State.popByte_room (fifoInv_of_inv hi hd) hpop).ne

/-- Settles O41: in every form the iteration is refused between POLLs, ends the POLL on an empty FIFO, and feeds the
popped byte, which completes a frame or does not. -/
theorem anIterationPopsFeedsAndDispatches : Obligations.AnIterationPopsFeedsAndDispatches := by
  intro s rest again hd hpend
  have hform : IterationLeaves s rest again := by
    rcases hpend with h | h | ⟨hnil, -, hagain, -⟩
    · exact .inl h
    · exact .inr (.inl h)
    · exact .inr (.inr ⟨hnil, hagain⟩)
  have hrest : s.pending = [] → rest = [] := by
    rcases hpend with ⟨h, -⟩ | ⟨h, -⟩ | ⟨-, hrest, -⟩
    · simp [h]
    · simp [h]
    · exact fun _ => hrest
  refine ⟨fun hidle => ?_, fun hpoll => step_empty hd hpoll hform hrest, fun b hpoll hne hrd hcell => ?_⟩
  · rcases hpend with ⟨h, -⟩ | ⟨h, -⟩ | ⟨-, -, -, hpoll⟩
    · exact step_iteration_betweenPolls hd hidle (.inl rfl) h
    · exact step_iteration_betweenPolls hd hidle (.inr rfl) h
    · rw [hidle] at hpoll
      cases hpoll
  · rw [step_iteration_written hd hform hpoll hne hrd hcell]
    refine ⟨fun hnone => ?_, fun f hf => ?_⟩
    · have hfeed := State.feed_incomplete (s := { s with pending := again }.removed) hnone
      rw [hfeed]
      rfl
    · have hfeed := State.feed_completes (s := { s with pending := again }.removed) hf
      rw [hfeed]
      rfl

/-- Settles O53: in a POLL that never ended, CNT would fall with every iteration and rise no more once the producer
has stopped. -/
theorem aPollEndsUnderTheFairnessPremise : Obligations.APollEndsUnderTheFairnessPremise := by
  intro inputs states hrun hi hd _ ⟨n, hfair⟩ hgoes
  by_contra hno
  have hpoll (k : Nat) : (states k).cstate = .polling := by
    cases hc : (states k).cstate with
    | idle => exact absurd ⟨k, hc⟩ hno
    | polling => rfl
  have hinit := run_initDone hrun hd hpoll
  have hfalls {j k : Nat} (hj : n ≤ j) (hjk : j ≤ k) : (states k).cnt ≤ (states j).cnt := by
    induction k, hjk using Nat.le_induction with
    | base => exact le_rfl
    | succ k hjk ih =>
      exact (cnt_succ_le_of_not_acceptsAt hrun hinit hpoll (hfair k (hj.trans hjk))).trans ih
  have hnever (c j : Nat) (hj : n ≤ j) (hc : (states j).cnt = c) : False := by
    induction c using Nat.strong_induction_on generalizing j with
    | _ c ih =>
      obtain ⟨k, hjk, hit | hidle⟩ := hgoes j
      · have hcnt := cnt_succ_of_iteratesAt hrun hinit hpoll hit
        have hle := hfalls hj hjk
        exact ih _ (by omega) (k + 1) (by omega) rfl
      · exact hno ⟨k, hidle⟩
  exact hnever _ n le_rfl rfl

/-- Settles O54: a POLL ends by an iteration on an empty FIFO alone, and a producer that pushes whenever the FIFO is
empty leaves it none. -/
theorem aPollGoesOnWhileTheFifoIsKeptFromEmptying : Obligations.APollGoesOnWhileTheFifoIsKeptFromEmptying := by
  refine ⟨fun inputs states hrun hd hpoll hbyte => ?_, fun s hi hd hpoll hpend => ?_⟩
  · have hgoes (k : Nat) : (states k).initDone = true ∧ (states k).cstate = .polling := by
      induction k with
      | zero => exact ⟨hd, hpoll⟩
      | succ k ih =>
        obtain ⟨hdk, hpollk⟩ := ih
        obtain ⟨hd', heffect⟩ := run_polling_effect hrun hdk hpollk
        rcases heffect with ⟨hit, ⟨hz, -⟩ | ⟨hpoll', -⟩⟩ | ⟨-, hcstate, -⟩
        · exact absurd hz (hbyte k hit)
        · exact ⟨hd', hpoll'⟩
        · exact ⟨hd', hcstate.trans hpollk⟩
    exact fun k => (hgoes k).2
  · have hs : PollAlone s := ⟨hi, hd, hpoll, hpend⟩
    exact ⟨_, refilled s, rfl, hs.refilled_isRun, hs.refilled_iterates, fun k => (hs.refilled_pollAlone k).cstate⟩

/-- Settles O40, by the next state of POLL and the consumer's two checks. -/
theorem pollEntersPolling : Obligations.PollEntersPolling :=
  ⟨fun _ hd hidle => execPoll_next.2 ⟨hd, hidle, rfl⟩, fun _ hd => State.afterInit_refused hd _,
    fun _ hd hpoll => State.consumerMay_polling_refused hd hpoll rfl _⟩

end Sys2Proof.Machine
end

section
/-! SUPPORT. The outcome code that a frame leaves by the check it fails or by its code's table entry, and the refusals
with WRONG_CONTEXT (60_exceptions.md R244, R246, R248, R255, R262). -/

namespace Sys2Proof.Machine

/-! ## The outcome of a frame -/

/-- An accepted frame that declares more parameters than it holds is discarded (R154). -/
theorem State.onFrame_lengthMismatch {s : State} {a n : Byte} {rest : Frame} (ha : a = s.devAddr ∨ a = 0)
    (hn : zext n > rest.length) (c : Byte) :
    s.onFrame (some (a :: c :: n :: rest)) = s.note .lengthMismatch := by
  have htoo : declaresTooMany n rest = true := decide_eq_true hn
  rw [State.onFrame, frameThen, if_pos (matchAddr_iff.2 ha), if_pos htoo]

/-- The outcome code of a frame that passes the checks, by its code's table entry (R156, R157). -/
def Entry.outcome : Entry → DiagCode
  | .handler _ => .dispatched
  | .noHandler => .reservedNoop
  | .absent => .unknownCommand

theorem runEntry_diag (e : Entry) (p : List Byte) (s : State) :
    (runEntry e p s).diag = s.diag ++ [e.outcome] := by
  cases e with
  | handler h => exact callHandler_diag h p s
  | noHandler => exact State.note_diag s _
  | absent => exact State.note_diag s _

/-- A frame that passes the checks records its table entry's outcome. -/
theorem State.onFrame_accepted_diag {s : State} {a n : Byte} {rest : Frame} (ha : a = s.devAddr ∨ a = 0)
    (hn : zext n ≤ rest.length) (c : Byte) :
    (s.onFrame (some (a :: c :: n :: rest))).diag = s.diag ++ [(cmdTable c).outcome] := by
  rw [State.onFrame, frameThen_accepted ha hn, runEntry_diag]

/-! ## Refusals with WRONG_CONTEXT -/

/-- Where what follows a check is not itself refused with WRONG_CONTEXT, that refusal means the check failed. -/
theorem whenAllowed_wrongContext {ok : Bool} {k : Out} (hk : ok = true → k ≠ .refused .wrongContext) :
    whenAllowed ok k = .refused .wrongContext ↔ ok = false := by
  cases ok with
  | false => exact ⟨fun _ => rfl, fun _ => rfl⟩
  | true => exact ⟨fun h => absurd h (hk rfl), fun h => nomatch h⟩

/-- The end of a transaction is a next state or a fault. -/
theorem finish_ne_refused {α : Type} (r : Except Fault α) (k : α → State) (why : Refusal) :
    finish r k ≠ .refused why := by
  cases r with
  | error _ => exact nofun
  | ok _ => exact nofun

theorem exec_push_ne_wrongContext {s : State} (b : Byte) (hd : s.initDone = true) :
    exec (.push b) s ≠ .refused .wrongContext := by
  have hexec : exec (.push b) s = finish (s.pushByte b) fun r => r.2.returning (.accepted r.1) := if_pos hd
  rw [hexec]
  exact finish_ne_refused _ _ _

/-- After INIT a port transaction that is no PUSH begins with R255's check of the consumer's context, and is not
refused with WRONG_CONTEXT after it. -/
theorem exec_contextChecked {w : PortWord} {payload : Option Frame} {i : Instr} {x : Txn} {s : State}
    (hdec : decodePort w payload = .ok i) (hx : txnOf i = some x) (hne : x ≠ .push) (hd : s.initDone = true) :
    ∃ k, exec i s = whenAllowed (contextAllows x s.pollContext) k ∧ k ≠ .refused .wrongContext := by
  obtain ⟨q, henc, -⟩ := encode_of_decodePort hdec
  cases i <;> cases henc <;> cases hx
  case push => exact absurd rfl hne
  case pop => exact ⟨_, if_pos hd, finish_ne_refused _ _ _⟩
  case init a =>
    refine ⟨.next ((s.initialised a).returning .nothing), ?_, nofun⟩
    simp [exec, execInit, hd]
  all_goals exact ⟨_, if_pos hd, nofun⟩

/-- What the consumer may issue in its context it may issue at all. -/
theorem agentMay_consumer {s : State} {x : Txn} (h : contextAllows x s.pollContext = true) :
    agentMay .consumer x = true := by
  rw [agentMay, Bool.or_eq_true]
  cases hc : s.cstate with
  | idle => exact .inl (by simpa [State.pollContext, hc] using h)
  | polling => exact .inr (by simpa [State.pollContext, hc] using h)

/-- The consumer's two checks, of the agent and of its context, refuse what its context does not admit. -/
theorem consumer_wrongContext {s : State} {x : Txn} {k : Out} (hk : k ≠ .refused .wrongContext) :
    whenAllowed (agentMay .consumer x) (whenAllowed (contextAllows x s.pollContext) k) = .refused .wrongContext ↔
      contextAllows x s.pollContext = false := by
  rw [← whenAllowed_wrongContext (ok := contextAllows x s.pollContext) fun _ => hk]
  cases hmay : agentMay .consumer x with
  | true => exact Iff.rfl
  | false =>
    have hno : contextAllows x s.pollContext = false := by
      rw [← Bool.not_eq_true]
      exact mt agentMay_consumer (by simp [hmay])
    rw [hno]
    exact Iff.rfl

/-- The port serves a transaction where its agent may issue it. -/
theorem servePort_txn (who : Issuer) {w : PortWord} {payload : Option Frame} {i : Instr} {x : Txn} (s : State)
    (hdec : decodePort w payload = .ok i) (hx : txnOf i = some x) :
    servePort who w payload s = whenAllowed (agentMay who x) (exec i s) := by
  have hmay : mayIssue who i = agentMay who x := by rw [mayIssue, hx]
  simp only [servePort, hdec, hmay]

theorem servePort_producer_wrongContext {w : PortWord} {payload : Option Frame} {i : Instr} {x : Txn} {s : State}
    (hdec : decodePort w payload = .ok i) (hx : txnOf i = some x) (hd : s.initDone = true) :
    servePort .producer w payload s = .refused .wrongContext ↔ contextAllows x .interrupt = false := by
  rw [servePort_txn .producer s hdec hx]
  refine whenAllowed_wrongContext fun hmay => ?_
  have hissue : mayIssue .producer i = true := by rwa [mayIssue, hx]
  rcases mayIssue_producer hissue with ⟨b, rfl⟩ | hnone
  · exact exec_push_ne_wrongContext b hd
  · rw [hx] at hnone
    cases hnone

theorem servePort_consumer_wrongContext {w : PortWord} {payload : Option Frame} {i : Instr} {x : Txn} {s : State}
    (hdec : decodePort w payload = .ok i) (hx : txnOf i = some x) (hd : s.initDone = true) :
    servePort .consumer w payload s = .refused .wrongContext ↔ contextAllows x s.pollContext = false := by
  rw [servePort_txn .consumer s hdec hx]
  by_cases hpush : x = .push
  · subst hpush
    have hno : contextAllows .push s.pollContext = false := by
      unfold State.pollContext
      cases s.cstate <;> rfl
    exact ⟨fun _ => hno, fun _ => rfl⟩
  · obtain ⟨k, hk, hne⟩ := exec_contextChecked hdec hx hpush hd
    rw [hk]
    exact consumer_wrongContext hne

/-- After INIT an iteration is refused with WRONG_CONTEXT exactly where no POLL is in progress. -/
theorem pollIter_wrongContext {s : State} (hd : s.initDone = true) :
    pollIter s = .refused .wrongContext ↔ contextAllows .pollIter s.pollContext = false := by
  have hiter : pollIter s = whenAllowed (contextAllows .pollIter s.pollContext) (finish s.popByte afterPop) :=
    if_pos hd
  rw [hiter]
  exact whenAllowed_wrongContext fun _ => finish_ne_refused _ _ _

/-- The producer may issue no iteration. -/
theorem step_producer_pollIter {s : State} {rest : List Request}
    (h : s.pending = { issuer := .producer, body := .pollIter } :: rest) : step s = .refused .wrongContext := by
  rw [step, h]
  rfl

end Sys2Proof.Machine
end

section
/-! The statements of the family 60_exceptions. -/

namespace Sys2Proof.Machine

/-- Settles O25, by `step_push`, which reads neither CSTATE nor the decoder. -/
theorem pushAlwaysHasAStep : Obligations.PushAlwaysHasAStep := by
  intro s b rest hi hd hpend
  obtain ⟨t, ht⟩ := step_push hi hd hpend
  exact ⟨t, ht.next, ht.pending⟩

/-- Settles O29: a frame's meaning is ON_FRAME's with it, and the address filter comes before the command. -/
theorem foreignFramesAreDiscarded : Obligations.ForeignFramesAreDiscarded := by
  intro i a c n rest s hf hd ha h0
  rw [exec_of_frameOf hf, State.afterInit, if_pos hd, State.onFrame_foreign ha h0]
  rfl

/-- Settles O30: a frame's meaning is ON_FRAME's with it, and the length check comes before the command. -/
theorem framesDeclaringTooManyParametersAreDiscarded : Obligations.FramesDeclaringTooManyParametersAreDiscarded := by
  intro i a c n rest s hf hd ha hn
  rw [exec_of_frameOf hf, State.afterInit, if_pos hd, State.onFrame_lengthMismatch ha hn]
  rfl

/-- Settles O34, by the frame's length and then the checks in their order. -/
theorem onFrameRecordsTheFirstCheckThatFails : Obligations.OnFrameRecordsTheFirstCheckThatFails := by
  intro fo s hd hidle
  refine ⟨_, execOnFrame_next.2 ⟨hd, hidle, rfl⟩, ?_⟩
  rw [State.returning_diag]
  match fo with
  | none | some [] | some [_] | some [_, _] => rfl
  | some (a :: c :: n :: rest) =>
    dsimp only
    split_ifs with hforeign hn
    · obtain ⟨ha, h0⟩ := hforeign
      rw [State.onFrame_foreign ha h0, State.note_diag]
    · rw [State.onFrame_lengthMismatch (by tauto) hn, State.note_diag]
    · rw [State.onFrame_accepted_diag (by tauto) (Nat.not_lt.1 hn)]
      cases cmdTable c <;> rfl

/-- Settles O51: the table by its 24 cells; then the producer's check is its column, and the consumer's two checks
come to the column of its context. -/
theorem transactionsOutsideTheirContextAreRefused : Obligations.TransactionsOutsideTheirContextAreRefused := by
  refine ⟨fun x c => by cases x <;> cases c <;> decide, fun s who rest hd hwho => ⟨?_, fun hpend => ?_⟩⟩
  · rintro i x ⟨w, payload, hpend, hdec⟩ hx
    rw [step_port hwho hpend]
    rcases hwho with rfl | rfl
    · exact servePort_producer_wrongContext hdec hx hd
    · exact servePort_consumer_wrongContext (s := { s with pending := rest }) hdec hx hd
  · rcases hwho with rfl | rfl
    · exact ⟨fun _ => rfl, fun _ => step_producer_pollIter hpend⟩
    · rw [step_pollIter hpend]
      exact pollIter_wrongContext (s := { s with pending := rest }) hd

/-- Settles O26, by the two outcomes of PUSH's body. -/
theorem pushTouchesNoStateOfTheConsumer : Obligations.PushTouchesNoStateOfTheConsumer := by
  intro b s t h
  obtain ⟨-, acc, u, hpush, rfl⟩ := execPush_next.1 h
  rcases State.pushByte_cases hpush with ⟨-, rfl, rfl⟩ | ⟨-, -, -, rfl⟩
  · exact ⟨rfl, rfl, rfl, rfl, rfl, rfl, rfl, rfl, .inr ⟨rfl, rfl⟩⟩
  · exact ⟨rfl, rfl, rfl, rfl, rfl, rfl, rfl, rfl, .inl rfl⟩

end Sys2Proof.Machine
end
